-- ==== Sys2Proof/Config.lean ====
section
/-! DEFINITION. What is fixed for the block and is not state (spec/00_scope.md R2, R7).

The block has one configuration, with no options (R2), and the source fixes every parameter of the
engine (R6; those numbers stand in Sys2Proof/Machine/Params.lean). The only parameters left open are
the latencies LAT_SEED, LAT_NEXT, LAT_CELLSEED, LAT_ISSPECIAL and LAT_ILLEGAL; no rule depends on
them and a model represents none of them (R91, 92 D15; log entry 5), so none stands here. No result
of a command is left open, so there is no free value here either: the one open value of the spec, the
contents of the state array after reset, comes with the reset event itself (log entry 2). -/

namespace Sys2Proof.Config

/-- The width of the STATUS field of a response, in bits (R7, R69, 92 D5). -/
abbrev statusBits : Nat := 8

/-- The width of the register that holds CURSOR, in bits (R7, R16, 92 D12). -/
abbrev cursorBits : Nat := 10

/-- The width of a whole request, in bits: its three 32-bit words (R7, R38, R44). -/
abbrev requestBits : Nat := 96

end Sys2Proof.Config
end

