-- ==== Sys2Proof/Word.lean ====
section
/-! DEFINITION. The 32-bit word, the `u32` of spec/00_scope.md R8.

The operators of R9 are the bit-vector operators of the same meaning: `+` and `*` keep the low 32
bits, `^^^`, `&&&`, `|||` work bit by bit, `>>>` shifts zeros in at the top, `<<<` discards what
leaves bit 31, and the unsigned remainder is `%` on `toNat`. Bit 0 is the least significant bit. -/

namespace Sys2Proof

/-- A `u32`: an integer in 0 .. 2^32-1 (R8). -/
abbrev Word := BitVec 32

end Sys2Proof
end

