-- ==== Sys2Proof/Syntax.lean ====
section
/-! DEFINITION. Requests, commands, and the lines of a command listing, as syntax.

A command is this block's instruction: spec/opcode_table.json has one row for each of SEED, NEXT,
CELLSEED and ISSPECIAL (spec/30_encoding.md R41). -/

namespace Sys2Proof

/-- The three words presented together on the command port (R38). -/
structure Request where
  cmd : Word
  arg0 : Word
  arg1 : Word
deriving DecidableEq, Repr

/-- The four commands with the operand words each one uses (R39). A word that a command ignores is no
part of the command: it may hold any value and has no effect (92 D7). -/
inductive Instr where
  /-- SEED (R56): construct the persistent engine from a seed. -/
  | seed (seed : Word)
  /-- NEXT (R57): draw the next word of the persistent engine. -/
  | next
  /-- CELLSEED (R63): the derived seed of a cell, its coordinates as 32-bit patterns. -/
  | cellseed (cellX cellZ : Word)
  /-- ISSPECIAL (R65): the special-cell predicate on a transient engine. -/
  | isspecial (cellX cellZ : Word)
deriving DecidableEq, Repr

/-- A literal of the listing syntax (R45): decimal, with a sign where it is negative, or
hexadecimal. -/
inductive Literal where
  | dec (value : Int)
  | hex (value : Nat)
deriving DecidableEq, Repr

/-- One line of a command listing (R45), the pseudo-commands of R46 among them. -/
inductive Line where
  | seed (seed : Literal)
  | next
  | cellseed (cellX cellZ : Literal)
  | isspecial (cellX cellZ : Literal)
  /-- `SEEDCELL x, z` (R46). -/
  | seedcell (cellX cellZ : Literal)
  /-- `SKIP k` (R46). -/
  | skip (k : Nat)
deriving DecidableEq, Repr

/-- What the host does for one command of an expanded line (R46): issue a command whose operands are
known, or issue a SEED whose operand is the RESULT of the command answered last. -/
inductive HostStep where
  | issue (i : Instr)
  | seedResult
deriving DecidableEq, Repr

end Sys2Proof
end

