-- ==== Sys2Proof/WellFormed.lean ====
section
/-! DEFINITION. Which requests are legal (spec/30_encoding.md R38, R43), which commands are well formed
(R39), and which lines the assembler accepts (R45). -/

namespace Sys2Proof

/-- A request is legal when its reserved field CMD[31:8] is 0 and its opcode is one of 0x01 .. 0x04;
every other CMD word is illegal (R43). The operand words never matter. -/
def Request.legal (r : Request) : Bool :=
  r.cmd.toNat / 256 == 0 && (1 ≤ r.cmd.toNat % 256 && r.cmd.toNat % 256 ≤ 4)

/-- Every command is well formed: each operand is a whole 32-bit word whatever its value, and the type
of the operand says so already (R39: no operand is scaled, shifted or extended). -/
def Instr.wellFormed : Instr → Bool
  | .seed _ => true
  | .next => true
  | .cellseed _ _ => true
  | .isspecial _ _ => true

/-- The range of a `<u32>` literal (R45): decimal -2147483648 .. 4294967295, hexadecimal 0x0 ..
0xFFFFFFFF. -/
def Literal.inU32 : Literal → Bool
  | .dec v => -2147483648 ≤ v && v ≤ 4294967295
  | .hex v => v ≤ 0xFFFFFFFF

/-- The range of an `<i32>` literal (R45): decimal -2147483648 .. 2147483647, hexadecimal 0x0 ..
0xFFFFFFFF. -/
def Literal.inI32 : Literal → Bool
  | .dec v => -2147483648 ≤ v && v ≤ 2147483647
  | .hex v => v ≤ 0xFFFFFFFF

/-- A line whose literals are in range; the assembler refuses every other line (R45). -/
def Line.wellFormed : Line → Bool
  | .seed l => l.inU32
  | .next => true
  | .cellseed x z => x.inI32 && z.inI32
  | .isspecial x z => x.inI32 && z.inI32
  | .seedcell x z => x.inI32 && z.inI32
  | .skip _ => true

end Sys2Proof
end

