-- ==== Sys2Proof/Decode.lean ====
section
/-! DEFINITION. Decoding and encoding of requests (spec/30_encoding.md R38 to R44), after the helper
that presents a host integer as an operand word (R8, R39). -/

namespace Sys2Proof

/-- `trunc32(v) = v mod 2^32`, the two's-complement pattern where `v` is negative (R8). -/
def trunc32 (v : Int) : Word := BitVec.ofInt 32 v

/-- `as_i32(v)`: the signed reading of a word (R8). -/
def asI32 (v : Word) : Int := if v.toNat < 2147483648 then v.toNat else v.toNat - 4294967296

/-- CMD[7:0], the field OPCODE (R38). -/
def opcodeField (cmd : Word) : BitVec 8 := cmd.extractLsb' 0 8

/-- CMD[31:8], the field RSVD (R38). -/
def rsvdField (cmd : Word) : BitVec 24 := cmd.extractLsb' 8 24

/-- Why a CMD word is illegal (R43). -/
inductive DecodeError where
  /-- CMD[31:8] is not 0. -/
  | reservedBits
  /-- The opcode is 0x00 or one of 0x05 .. 0xFF. -/
  | unassignedOpcode
deriving DecidableEq, Repr

/-- The four assigned opcodes (R41). -/
inductive Opcode where
  | seed
  | next
  | cellseed
  | isspecial
deriving DecidableEq, Repr

/-- R42: the total function from the CMD word to a command or Illegal. The operand words do not
enter. -/
def decodeCmd (cmd : Word) : Except DecodeError Opcode :=
  if rsvdField cmd ≠ 0#24 then .error .reservedBits
  else if opcodeField cmd = 0x01#8 then .ok .seed
  else if opcodeField cmd = 0x02#8 then .ok .next
  else if opcodeField cmd = 0x03#8 then .ok .cellseed
  else if opcodeField cmd = 0x04#8 then .ok .isspecial
  else .error .unassignedOpcode

/-- The command that an opcode makes of the operand words (R39). -/
def operate (op : Opcode) (arg0 arg1 : Word) : Instr :=
  match op with
  | .seed => .seed arg0
  | .next => .next
  | .cellseed => .cellseed arg0 arg1
  | .isspecial => .isspecial arg0 arg1

/-- Decoding a request: R42 on its CMD word, then the operand words the command uses (R39). -/
def decode (r : Request) : Except DecodeError Instr :=
  match decodeCmd r.cmd with
  | .ok op => .ok (operate op r.arg0 r.arg1)
  | .error e => .error e

/-- Encoding a command (R41, R39); an ignored operand word is written as 0 (R45). -/
def encode : Instr → Request
  | .seed s => ⟨0x00000001#32, s, 0#32⟩
  | .next => ⟨0x00000002#32, 0#32, 0#32⟩
  | .cellseed x z => ⟨0x00000003#32, x, z⟩
  | .isspecial x z => ⟨0x00000004#32, x, z⟩

/-- A request as one number, CMD in bits 31..0, ARG0 in bits 63..32, ARG1 in bits 95..64: the
numbering of spec/opcode_table.json carried on over the operand words. -/
def requestBits (r : Request) : BitVec Config.requestBits :=
  BitVec.ofNat Config.requestBits (r.cmd.toNat + 2 ^ 32 * r.arg0.toNat + 2 ^ 64 * r.arg1.toNat)

/-- The request whose bits, numbered as in `requestBits`, are given. -/
def requestOfBits (b : BitVec Config.requestBits) : Request :=
  ⟨BitVec.ofNat 32 b.toNat, BitVec.ofNat 32 (b.toNat / 2 ^ 32), BitVec.ofNat 32 (b.toNat / 2 ^ 64)⟩

/-- The request whose first `nbits` bits are `w` and whose bits above them are 0. -/
def tableRequest (nbits w : Nat) : Request :=
  requestOfBits (BitVec.ofNat Config.requestBits (w % 2 ^ nbits))

/-- What the decoder reads from the instruction whose bits, numbered as spec/opcode_table.json numbers
them, are `w`. -/
def decodeTableWord (nbits w : Nat) : Option Instr :=
  match decode (tableRequest nbits w) with
  | .ok i => some i
  | .error _ => none

end Sys2Proof
end

