-- ==== Sys2Proof/Machine/State.lean ====
section
/-! DEFINITION. The state of the block and of its command port, the reasons a step can stop, and the
state right after reset (spec/10_state.md). -/

namespace Sys2Proof.Machine

/-- The three statuses of a response; the codes 0x03 .. 0xFF are never produced (R69, 93 I2). -/
inductive Status where
  /-- The command completed. -/
  | ok
  /-- The CMD word is illegal (R71). -/
  | illegalCmd
  /-- NEXT before any SEED (R72). -/
  | unseeded
deriving DecidableEq, Repr

/-- What the block answers to one request (R38). -/
structure Response where
  status : Status
  result : Word
deriving DecidableEq, Repr

/-- The state array: exactly 624 words of 32 bits, indices 0..623 (R15). It is the block's only memory,
and it has no bytes (R25, R28; log entry 4). -/
abbrev StateArray := Vector Word 624

/-- One value of the PRNG state: the array and the cursor (R14). The cursor takes the values 0..624
and no others (R16, R17); the type is the one 92 D12 and 93 I3 ask for. -/
structure Engine where
  mt : StateArray
  cursor : Fin 625
deriving DecidableEq, Repr

/-- The block's architectural state, all of it (R13, R14): the persistent engine and the flag
SEEDED. -/
structure Block where
  eng : Engine
  seeded : Bool
deriving DecidableEq, Repr

/-- What the world does at the port in one step. The model's own type, not the spec's (log entry 3). -/
inductive PortEvent where
  /-- The host presents a request, and the block, being idle, accepts it (R88). -/
  | request (r : Request)
  /-- Reset is asserted between commands (R84). The array's contents after it are unspecified, so they
  come with the event: any contents whatever (log entry 2). -/
  | reset (contents : StateArray)
  /-- A request is accepted and reset is asserted before its response (R85); `contents` as for
  `reset`. -/
  | abandoned (r : Request) (contents : StateArray)
deriving DecidableEq, Repr

/-- The machine: the block, and the two sides of its port. `pending` and `answered` are the model's own
fields (log entry 3): what the world does next, oldest first, and what the block has answered so far,
oldest first. -/
structure State where
  block : Block
  pending : List PortEvent
  answered : List Response
deriving DecidableEq, Repr

/-- Why the machine could stop with a fault. There is no such reason: the block takes no traps, an
error is a response (R75), and a step is a total function (R88). -/
inductive Fault where
deriving DecidableEq, Repr

/-- Why a command could be left without a meaning. -/
inductive Refusal where
  /-- Raised by an arm of `exec` whose instruction has no meaning yet; no arm raises it now. Safe: the
  machine stops where the hardware goes on. -/
  | notModelled (mnemonic : String)
deriving DecidableEq, Repr

/-- The machine right after reset (R21): SEEDED = 0 and CURSOR = 624. DESIGN CHOICE (log entry 1,
unsafe): the words of the state array, which the spec leaves unspecified, are 0. Nothing is pending at
the port and nothing has been answered (log entry 3). -/
def State.reset : State where
  block := { eng := { mt := Vector.replicate 624 0#32, cursor := 624 }, seeded := false }
  pending := []
  answered := []

end Sys2Proof.Machine
end

