-- ==== Sys2Proof/Machine/Params.lean ====
section
/-! DEFINITION. The parameters of the engine, of the seed derivation and of the predicate, all fixed by
the source (spec/00_scope.md R6). The array length n = 624 stands in the types of
Sys2Proof/Machine/State.lean. -/

namespace Sys2Proof.Machine

/-- f: the seeding multiplier. -/
abbrev seedMultiplier : Word := 1812433253#32

/-- The right shift of the seeding recurrence. -/
abbrev seedShift : Nat := 30

/-- m: the twist offset. -/
abbrev twistOffset : Nat := 397

/-- UPPER_MASK: the upper bit of a word. -/
abbrev upperMask : Word := 0x80000000#32

/-- LOWER_MASK: the lower 31 bits of a word. -/
abbrev lowerMask : Word := 0x7FFFFFFF#32

/-- a: the twist matrix constant. -/
abbrev twistMatrix : Word := 0x9908B0DF#32

/-- u: tempering shift 1, to the right. -/
abbrev temperShiftU : Nat := 11

/-- s: tempering shift 2, to the left. -/
abbrev temperShiftS : Nat := 7

/-- b: tempering mask 2. -/
abbrev temperMaskB : Word := 0x9D2C5680#32

/-- t: tempering shift 3, to the left. -/
abbrev temperShiftT : Nat := 15

/-- c: tempering mask 3. -/
abbrev temperMaskC : Word := 0xEFC60000#32

/-- l: tempering shift 4, to the right. -/
abbrev temperShiftL : Nat := 18

/-- K: the seed-derivation multiplier. -/
abbrev cellMultiplier : Word := 0x1F1F1F1F#32

/-- D: the modulus of the predicate. -/
abbrev specialModulus : Nat := 10

end Sys2Proof.Machine
end

