-- ==== Sys2Proof/Machine/Ops.lean ====
section
/-! DEFINITION. The named operations over the state array, the registers and the command port: state
reads and writes (spec/20_memory.md R26), responding, raising an error (spec/60_exceptions.md R69,
R70), reset (spec/70_reset_and_hazards.md R84, R85). The block takes no traps, so raising an error is
its whole exception entry, and there is no return from one (R75, R76). -/

namespace Sys2Proof.Machine

/-- The outcome of one step of this machine. -/
abbrev Result := Host.Outcome State Fault Refusal

/-- `k mod 624` as an index of the state array; index arithmetic is on naturals (R9, R27). -/
def wordIndex (k : Nat) : Fin 624 := ⟨k % 624, Nat.mod_lt k (by decide)⟩

/-- `StateRead(i)` (R26). -/
def stateRead (mt : StateArray) (i : Fin 624) : Word := mt[i]

/-- `StateWrite(i, v)` (R26): it changes only the word it names (R30). -/
def stateWrite (mt : StateArray) (i : Fin 624) (v : Word) : StateArray := mt.set i v

/-- The 10-bit register that holds CURSOR (R16). -/
def cursorRegister (e : Engine) : BitVec Config.cursorBits :=
  BitVec.ofNat Config.cursorBits e.cursor.val

/-- The persistent engine becomes `e`: `MT <- e.mt`, `CURSOR <- e.cursor`. -/
def setEngine (e : Engine) (s : State) : State := { s with block := { s.block with eng := e } }

/-- The code of a status in the 8-bit STATUS field (R69). -/
def statusCode : Status → BitVec Config.statusBits
  | .ok => 0x00#8
  | .illegalCmd => 0x01#8
  | .unseeded => 0x02#8

/-- The two errors of the command interface (R71, R72). -/
inductive CmdError where
  | illegalCmd
  | unseeded
deriving DecidableEq, Repr

/-- The status that reports an error (R69). -/
def errorStatus : CmdError → Status
  | .illegalCmd => .illegalCmd
  | .unseeded => .unseeded

/-- `respond(status, result)` (R10): the command ends and its one response goes out on the port. -/
def respond (status : Status) (result : Word) (s : State) : Result :=
  .next { s with answered := s.answered ++ [⟨status, result⟩] }

/-- `raise E()` (R70): the response carries the code of E and RESULT 0, nothing else changes, and
nothing records the error. -/
def raiseError (e : CmdError) (s : State) : Result := respond (errorStatus e) 0#32 s

/-- A request whose CMD word is illegal is answered with ILLEGAL_CMD, whichever field makes it so
(R71). -/
def rejectRequest (e : DecodeError) (s : State) : Result :=
  match e with
  | .reservedBits => raiseError .illegalCmd s
  | .unassignedOpcode => raiseError .illegalCmd s

/-- The port takes its oldest event; `rest` are the events after it (R33, R88). -/
def takeEvent (rest : List PortEvent) (s : State) : State := { s with pending := rest }

/-- The block's state after reset (R21, R84): SEEDED = 0, CURSOR = 624, and any contents of the state
array. -/
def resetBlock (contents : StateArray) : Block :=
  { eng := { mt := contents, cursor := 624 }, seeded := false }

/-- Asserting reset (R84): the state of R21, and no response. -/
def takeReset (contents : StateArray) (s : State) : Result :=
  .next { s with block := resetBlock contents }

/-- Reset during a command (R85): the command is abandoned, there is no response, and the state is that
of R84 whatever part of the command had been performed. -/
def abandonRequest (contents : StateArray) (s : State) : Result := takeReset contents s

/-- Nothing happens at the port: the block stays idle and its state is kept (R83, R86, R88; log
entry 6). -/
def stayIdle (s : State) : Result := .next s

end Sys2Proof.Machine
end

