-- ==== Sys2Proof/Machine/Operands.lean ====
section
/-! DEFINITION. How a host integer becomes an operand word (spec/30_encoding.md R39, R45; 92 D22). The
block itself scales, shifts and extends nothing: inside it every operand is a 32-bit word. -/

namespace Sys2Proof.Machine

/-- A seed of any width and sign is presented as `trunc32` of it, never refused (R39, R49). -/
def seedOperand (seed : Int) : Word := trunc32 seed

/-- A signed coordinate is presented as its 32-bit two's-complement pattern (R39). -/
def cellOperand (coordinate : Int) : Word := trunc32 coordinate

/-- The bit pattern of a literal: a decimal literal stands for its `trunc32` pattern, a hexadecimal one
gives the pattern directly (R45). -/
def literalWord : Literal → Word
  | .dec v => trunc32 v
  | .hex v => BitVec.ofNat 32 v

/-- A `<u32>` operand of the listing syntax; out of range it is refused, it does not wrap (R45). -/
def u32Operand (l : Literal) : Option Word := if l.inU32 then some (literalWord l) else none

/-- An `<i32>` operand of the listing syntax; out of range it is refused, it does not wrap (R45). -/
def i32Operand (l : Literal) : Option Word := if l.inI32 then some (literalWord l) else none

end Sys2Proof.Machine
end

