-- ==== Sys2Proof/Machine/Flags.lean ====
section
/-! DEFINITION. The block's only flag, SEEDED (spec/10_state.md R18). There are no condition codes, no
carry and no overflow: wraparound is expected and nothing records it. -/

namespace Sys2Proof.Machine

/-- NEXT reads SEEDED; no other command does (R18). -/
def isSeeded (s : State) : Bool := s.block.seeded

/-- `SEEDED <- 1`, which only SEED does (R18, R56). -/
def markSeeded (s : State) : State := { s with block := { s.block with seeded := true } }

end Sys2Proof.Machine
end

