-- ==== Sys2Proof/Machine/Engine.lean ====
section
/-! DEFINITION. The PRNG engine and the commands SEED and NEXT (spec/40_engine.md). The internal
functions are pure functions on words and `Engine` values (R48). -/

namespace Sys2Proof.Machine

/-- `SeedStep(p, i)` (R50). -/
def seedStep (p : Word) (i : Nat) : Word :=
  seedMultiplier * (p ^^^ (p >>> seedShift)) + BitVec.ofNat 32 i

/-- The seeding recurrence from word `i`, whose value is `p`, for `n` words: each word is `SeedStep` of
the word before it and its own index (R51). -/
def seedingFrom : Nat → Nat → Word → List Word
  | 0, _, _ => []
  | n + 1, i, p => p :: seedingFrom n (i + 1) (seedStep p (i + 1))

theorem seedingFrom_length (n i : Nat) (p : Word) : (seedingFrom n i p).length = n := by
  induction n generalizing i p with
  | zero => rfl
  | succ n ih => simp [seedingFrom, ih]

/-- `Init(seed)` (R51): word 0 is the seed, word i is `SeedStep(word i-1, i)` for i = 1..623. -/
def initArray (seed : Word) : StateArray :=
  ⟨(seedingFrom 624 0 seed).toArray, by simp [seedingFrom_length]⟩

/-- `New(seed)` (R48): a freshly constructed engine. -/
def newEngine (seed : Word) : Engine := { mt := initArray seed, cursor := 624 }

/-- `odd(v)`: bit 0 is 1 (R9). -/
def oddWord (v : Word) : Bool := v.getLsbD 0

/-- `TwistStep(a, b, c)` (R53). -/
def twistStep (a b c : Word) : Word :=
  let x := (a &&& upperMask) + (b &&& lowerMask)
  let xA := x >>> 1
  c ^^^ (if oddWord x then xA ^^^ twistMatrix else xA)

/-- Iteration `i` of the twist, in place (R52): it reads the array as the earlier iterations left it. -/
def twistAt (mt : StateArray) (i : Nat) : StateArray :=
  stateWrite mt (wordIndex i)
    (twistStep (stateRead mt (wordIndex i)) (stateRead mt (wordIndex (i + 1)))
      (stateRead mt (wordIndex (i + twistOffset))))

/-- The array after the first `n` iterations of the twist, in increasing index order (R52). -/
def twistUpTo (mt : StateArray) : Nat → StateArray
  | 0 => mt
  | n + 1 => twistAt (twistUpTo mt n) n

/-- `Twist(mt)` (R52): all 624 iterations. -/
def twist (mt : StateArray) : StateArray := twistUpTo mt 624

/-- `Temper(y0)` (R54). -/
def temper (y0 : Word) : Word :=
  let y1 := y0 ^^^ (y0 >>> temperShiftU)
  let y2 := y1 ^^^ ((y1 <<< temperShiftS) &&& temperMaskB)
  let y3 := y2 ^^^ ((y2 <<< temperShiftT) &&& temperMaskC)
  y3 ^^^ (y3 >>> temperShiftL)

/-- The second half of a draw (R55): temper word `i` of the array; the cursor becomes `i + 1`. -/
def emitWord (mt : StateArray) (i : Fin 624) : Word × Engine :=
  (temper (stateRead mt i), { mt := mt, cursor := i.succ })

/-- `Draw(eng)` (R55): at cursor 624 the twist runs first and the cursor goes to 0. -/
def draw (e : Engine) : Word × Engine :=
  if h : e.cursor.val = 624 then emitWord (twist e.mt) 0
  else emitWord e.mt ⟨e.cursor.val, by have := e.cursor.isLt; omega⟩

/-- SEED (R56): MT <- Init(ARG0), CURSOR <- 624, SEEDED <- 1, respond(OK, 0). It runs no twist. -/
def execSeed (seed : Word) (s : State) : Result :=
  respond .ok 0#32 (markSeeded (setEngine (newEngine seed) s))

/-- NEXT (R57): UNSEEDED while SEEDED = 0 (R72); else one draw of the persistent engine. -/
def execNext (s : State) : Result :=
  if isSeeded s then
    respond .ok (draw s.block.eng).1 (setEngine (draw s.block.eng).2 s)
  else raiseError .unseeded s

end Sys2Proof.Machine
end

