-- ==== Sys2Proof/Machine/Cell.lean ====
section
/-! DEFINITION. Seed derivation, the special-cell predicate, and the commands CELLSEED and ISSPECIAL
(spec/41_cell.md). Neither command touches the persistent engine. -/

namespace Sys2Proof.Machine

/-- `mul32(a, b)`: the low 32 bits of the full product (R61). -/
def mul32 (a b : Word) : Word := a * b

/-- The seed of a cell from its two operand words (R63): `(ARG0 * 0x1F1F1F1F) ^ ARG1`. -/
def derivedSeed (arg0 arg1 : Word) : Word := mul32 arg0 cellMultiplier ^^^ arg1

/-- `CellSeed(cellX, cellZ)` on signed integers of any size (R62, R66). -/
def cellSeed (cellX cellZ : Int) : Word := derivedSeed (cellOperand cellX) (cellOperand cellZ)

/-- The predicate on a seed (R64): one draw of a fresh transient engine, unsigned remainder 0 modulo
10. The transient engine is a local value (R19). -/
def seedIsSpecial (seed : Word) : Bool := (draw (newEngine seed)).1.toNat % specialModulus == 0

/-- `IsSpecial(cellX, cellZ)` on signed integers of any size (R64, R66). -/
def isSpecial (cellX cellZ : Int) : Bool := seedIsSpecial (cellSeed cellX cellZ)

/-- The RESULT word of a boolean: 1 or 0, bits 31:1 zero (R40, 92 D10). -/
def boolWord (b : Bool) : Word := if b then 1#32 else 0#32

/-- CELLSEED (R63): respond with the derived seed; no state is written, seeded or not. -/
def execCellseed (cellX cellZ : Word) (s : State) : Result :=
  respond .ok (derivedSeed cellX cellZ) s

/-- ISSPECIAL (R65): respond with the predicate; the transient engine is discarded and no state is
written, seeded or not. -/
def execIsspecial (cellX cellZ : Word) (s : State) : Result :=
  respond .ok (boolWord (seedIsSpecial (derivedSeed cellX cellZ))) s

end Sys2Proof.Machine
end

