-- ==== Sys2Proof/Machine/Dispatch.lean ====
section
/-! DEFINITION. `exec`: one arm per command, each a call of its meaning. -/

namespace Sys2Proof.Machine

/-- What a decoded command does (spec/30_encoding.md R41). -/
def exec (i : Instr) (s : State) : Host.Outcome State Fault Refusal :=
  match i with
  | .seed seed => Sys2Proof.Machine.execSeed seed s
  | .next => Sys2Proof.Machine.execNext s
  | .cellseed cellX cellZ => Sys2Proof.Machine.execCellseed cellX cellZ s
  | .isspecial cellX cellZ => Sys2Proof.Machine.execIsspecial cellX cellZ s

end Sys2Proof.Machine
end

