-- ==== Sys2Proof/Machine/Step.lean ====
section
/-! DEFINITION. One step of the machine: the port's oldest event, as one atomic step (spec/20_memory.md
R30, R33; spec/70_reset_and_hazards.md R84, R85, R88). -/

namespace Sys2Proof.Machine

/-- One step. A request is accepted, decoded, and answered by exactly one response (R88); decoding comes
first, so an illegal CMD word is ILLEGAL_CMD in every state (R73). -/
def step (s : State) : Host.Outcome State Fault Refusal :=
  match s.pending with
  | [] => stayIdle s
  | .request r :: rest =>
    match decode r with
    | .ok i => exec i (takeEvent rest s)
    | .error e => rejectRequest e (takeEvent rest s)
  | .reset contents :: rest => takeReset contents (takeEvent rest s)
  | .abandoned _ contents :: rest => abandonRequest contents (takeEvent rest s)

/-- `s` with the request that `nbits` and `w` stand for presented as the port's next event; the block,
what was pending behind it and what was answered stay as they are (log entry 9). -/
def State.withFetchWord (s : State) (nbits w : Nat) : State :=
  { s with pending := .request (tableRequest nbits w) :: s.pending }

end Sys2Proof.Machine
end

