-- ==== Sys2Proof/Machine/HostSide.lean ====
section
/-! DEFINITION. The host's side of the port: presenting commands, and the pseudo-commands SEEDCELL and
SKIP, which are host-side expansions (spec/30_encoding.md R46). The block sees only the expanded
commands. -/

namespace Sys2Proof.Machine

/-- The host presents the command `i` as the port's next event. -/
def present (i : Instr) (s : State) : State :=
  { s with pending := .request (encode i) :: s.pending }

/-- The host presents several commands, the first of them first (R33). -/
def presentAll (is : List Instr) (s : State) : State :=
  { s with pending := is.map (fun i => .request (encode i)) ++ s.pending }

/-- `SEEDCELL x, z` (R46): CELLSEED x, z and then SEED of its RESULT. -/
def expandSeedcell (cellX cellZ : Word) : List HostStep := [.issue (.cellseed cellX cellZ), .seedResult]

/-- `SKIP k` (R46): k copies of NEXT, their RESULTs discarded. -/
def expandSkip (k : Nat) : List HostStep := List.replicate k (.issue .next)

/-- The command a host step issues. `none`: the host waits for a response that has not come (log
entry 8). -/
def hostCommand (h : HostStep) (s : State) : Option Instr :=
  match h with
  | .issue i => some i
  | .seedResult => s.answered.getLast?.map (fun r => .seed r.result)

/-- One host step: the host presents its command and the block answers it. -/
def hostStep (h : HostStep) (s : State) : Option State :=
  match hostCommand h s with
  | none => none
  | some i =>
    match step (present i s) with
    | .next t => some t
    | .fault _ => none
    | .refused _ => none

/-- The host steps of an expanded line, one after the other. They are not one atomic step: a reset may
land between two of them (R46). -/
def runScript : List HostStep → State → Option State
  | [], s => some s
  | h :: hs, s =>
    match hostStep h s with
    | none => none
    | some t => runScript hs t

end Sys2Proof.Machine
end

