-- ==== Sys2Proof/Machine/Listing.lean ====
section
/-! DEFINITION. The command-listing syntax of spec/30_encoding.md R45: from the text of a line to its
command and its expected response, from a command to the host steps and request words it stands for,
and from request words and responses back to text. Text is a list of characters; what R45 leaves open
(blanks, letter case of hexadecimal digits, empty lines) is log entry 7. -/

namespace Sys2Proof.Machine

/-- Why a line is refused. -/
inductive ListingError where
  /-- The first word of the line is no mnemonic and no pseudo-command. -/
  | unknownMnemonic
  /-- The line has too many or too few operands, or an operand is no literal. -/
  | badOperands
  /-- A literal is outside its range (R45: refused, it does not wrap). -/
  | outOfRange
  /-- The text after `->` is no response, or there is no command before it. -/
  | badResponse
deriving DecidableEq, Repr

/-- What one line of a listing holds: a command, if any, and the response written after `->`, if
any (log entry 7 on what a response beside a pseudo-command is). -/
structure ListingLine where
  command : Option Line
  response : Option Response
deriving DecidableEq, Repr

/-- The host steps of a line: the command itself, or the expansion of a pseudo-command (R46). A line
with a literal out of range is refused (R45). -/
def assemble : Line → Except ListingError (List HostStep)
  | .seed l =>
    match u32Operand l with
    | some w => .ok [.issue (.seed w)]
    | none => .error .outOfRange
  | .next => .ok [.issue .next]
  | .cellseed x z =>
    match i32Operand x, i32Operand z with
    | some a, some b => .ok [.issue (.cellseed a b)]
    | _, _ => .error .outOfRange
  | .isspecial x z =>
    match i32Operand x, i32Operand z with
    | some a, some b => .ok [.issue (.isspecial a b)]
    | _, _ => .error .outOfRange
  | .seedcell x z =>
    match i32Operand x, i32Operand z with
    | some a, some b => .ok (expandSeedcell a b)
    | _, _ => .error .outOfRange
  | .skip k => .ok (expandSkip k)

/-- A blank between the parts of a line. -/
def isBlank (c : Char) : Bool := c == ' ' || c == '\t'

/-- The text without the blanks at its two ends. -/
def trimBlanks (cs : List Char) : List Char :=
  ((cs.dropWhile isBlank).reverse.dropWhile isBlank).reverse

/-- `;` starts a comment (R45). -/
def dropComment (cs : List Char) : List Char := cs.takeWhile (fun c => c != ';')

/-- The text before `->` and, where there is one, the text after it. -/
def splitArrow : List Char → List Char × Option (List Char)
  | [] => ([], none)
  | '-' :: '>' :: rest => ([], some rest)
  | c :: rest => (c :: (splitArrow rest).1, (splitArrow rest).2)

/-- The pieces between commas. -/
def splitCommas : List Char → List (List Char)
  | [] => [[]]
  | c :: rest =>
    match splitCommas rest with
    | [] => [[c]]
    | piece :: pieces => if c == ',' then [] :: piece :: pieces else (c :: piece) :: pieces

/-- The value of a digit character in base 16; a decimal digit is one below 10. -/
def digitValue (c : Char) : Option Nat :=
  if '0'.toNat ≤ c.toNat ∧ c.toNat ≤ '9'.toNat then some (c.toNat - '0'.toNat)
  else if 'A'.toNat ≤ c.toNat ∧ c.toNat ≤ 'F'.toNat then some (c.toNat - 'A'.toNat + 10)
  else if 'a'.toNat ≤ c.toNat ∧ c.toNat ≤ 'f'.toNat then some (c.toNat - 'a'.toNat + 10)
  else none

/-- The number that a run of digits continues from `acc`. -/
def readDigits (base : Nat) : Nat → List Char → Option Nat
  | acc, [] => some acc
  | acc, c :: rest =>
    match digitValue c with
    | some d => if d < base then readDigits base (acc * base + d) rest else none
    | none => none

/-- The number that a nonempty run of digits stands for. -/
def readNumber (base : Nat) (cs : List Char) : Option Nat :=
  match cs with
  | [] => none
  | _ :: _ => readDigits base 0 cs

/-- A literal (R45): `0x` and hexadecimal digits, or decimal digits, with `-` before them where it is
negative. DESIGN CHOICE (log entry 7): the text `-0` is read as decimal 0; R45's negative literals begin
at -1 and it does not say whether `-0` is a literal. -/
def readLiteral (cs : List Char) : Option Literal :=
  match cs with
  | '0' :: 'x' :: rest => (readNumber 16 rest).map .hex
  | '-' :: rest => (readNumber 10 rest).map (fun n => .dec (-(n : Int)))
  | _ => (readNumber 10 cs).map (fun n => .dec (n : Int))

/-- The operands of a line: the trimmed pieces between commas, none where the text is blank. -/
def operandTexts (cs : List Char) : List (List Char) :=
  if (trimBlanks cs).isEmpty then [] else (splitCommas cs).map trimBlanks

/-- A line with one literal. -/
def oneLiteral (f : Literal → Line) : List (List Char) → Except ListingError Line
  | [a] =>
    match readLiteral a with
    | some l => .ok (f l)
    | none => .error .badOperands
  | _ => .error .badOperands

/-- A line with two literals. -/
def twoLiterals (f : Literal → Literal → Line) : List (List Char) → Except ListingError Line
  | [a, b] =>
    match readLiteral a, readLiteral b with
    | some l, some m => .ok (f l m)
    | _, _ => .error .badOperands
  | _ => .error .badOperands

/-- A line with one count, a decimal number that is not negative (R46). -/
def oneCount (f : Nat → Line) : List (List Char) → Except ListingError Line
  | [a] =>
    match readNumber 10 a with
    | some k => .ok (f k)
    | none => .error .badOperands
  | _ => .error .badOperands

/-- A line without operands. -/
def noOperand (l : Line) : List (List Char) → Except ListingError Line
  | [] => .ok l
  | _ :: _ => .error .badOperands

/-- The command of a line by its mnemonic, upper case, and its operands (R45, R46). -/
def readCommand (mnemonic : List Char) (operands : List (List Char)) : Except ListingError Line :=
  if mnemonic = ['S', 'E', 'E', 'D'] then oneLiteral .seed operands
  else if mnemonic = ['N', 'E', 'X', 'T'] then noOperand .next operands
  else if mnemonic = ['C', 'E', 'L', 'L', 'S', 'E', 'E', 'D'] then twoLiterals .cellseed operands
  else if mnemonic = ['I', 'S', 'S', 'P', 'E', 'C', 'I', 'A', 'L'] then twoLiterals .isspecial operands
  else if mnemonic = ['S', 'E', 'E', 'D', 'C', 'E', 'L', 'L'] then twoLiterals .seedcell operands
  else if mnemonic = ['S', 'K', 'I', 'P'] then oneCount .skip operands
  else .error .unknownMnemonic

/-- The name of a status in a listing (R45, R69). -/
def statusName : Status → List Char
  | .ok => ['O', 'K']
  | .illegalCmd => ['I', 'L', 'L', 'E', 'G', 'A', 'L', '_', 'C', 'M', 'D']
  | .unseeded => ['U', 'N', 'S', 'E', 'E', 'D', 'E', 'D']

/-- The status that a name stands for. -/
def readStatus (cs : List Char) : Option Status :=
  if cs = statusName .ok then some .ok
  else if cs = statusName .illegalCmd then some .illegalCmd
  else if cs = statusName .unseeded then some .unseeded
  else none

/-- The response written after `->` as `STATUS, RESULT` (R45). -/
def readResponse (cs : List Char) : Except ListingError Response :=
  match operandTexts cs with
  | [a, b] =>
    match readStatus a, (readLiteral b).bind u32Operand with
    | some st, some w => .ok ⟨st, w⟩
    | _, _ => .error .badResponse
  | _ => .error .badResponse

/-- The text of a line without its comment and its response: a mnemonic, blanks, operands. -/
def readCommandText (cs : List Char) : Except ListingError (Option Line) :=
  match trimBlanks cs with
  | [] => .ok none
  | body@(_ :: _) =>
    match readCommand (body.takeWhile (fun c => !isBlank c))
        (operandTexts (body.dropWhile (fun c => !isBlank c))) with
    | .ok l => if l.wellFormed then .ok (some l) else .error .outOfRange
    | .error e => .error e

/-- Reading one line of a listing (R45). DESIGN CHOICE (log entry 7): any command line may carry one
response after `->`, a pseudo-command line too, although SEEDCELL has two responses and SKIP k has k; the
response is read and not held against the command; a response without a command is refused. -/
def readLine (text : List Char) : Except ListingError ListingLine :=
  match readCommandText (splitArrow (dropComment text)).1, (splitArrow (dropComment text)).2 with
  | .error e, _ => .error e
  | .ok cmd, none => .ok ⟨cmd, none⟩
  | .ok none, some _ => .error .badResponse
  | .ok (some l), some after =>
    match readResponse after with
    | .ok resp => .ok ⟨some l, some resp⟩
    | .error e => .error e

/-- A hexadecimal digit, upper case. -/
def hexDigit (n : Nat) : Char := if n < 10 then Char.ofNat (48 + n) else Char.ofNat (55 + n)

/-- A word as eight hexadecimal digits. -/
def hexWord (w : Word) : List Char :=
  [7, 6, 5, 4, 3, 2, 1, 0].map (fun k => hexDigit (w.toNat / 16 ^ k % 16))

/-- The encoded form of a request: the three hexadecimal words `CMD ARG0 ARG1` (R45). -/
def requestText (r : Request) : List Char :=
  hexWord r.cmd ++ ' ' :: (hexWord r.arg0 ++ ' ' :: hexWord r.arg1)

/-- A response in a listing: `STATUS, RESULT`, the RESULT in decimal (R45). -/
def responseText (r : Response) : List Char :=
  statusName r.status ++ ',' :: ' ' :: Nat.toDigits 10 r.result.toNat

end Sys2Proof.Machine
end

