-- ==== Sys2Proof/Safety.lean ====
section
/-! DEFINITION. The terms in which claims about the machine are stated: the invariants of a run, what a
host can observe, the stream of an engine, and the array after a number of twists. -/

namespace Sys2Proof.Machine

/-- An illegal CMD word, in R43's own terms: CMD[31:8] is not 0, or the opcode is 0x00 or one of 0x05 ..
0xFF. -/
abbrev IllegalCmd (cmd : Word) : Prop :=
  cmd.toNat / 256 ≠ 0 ∨ cmd.toNat % 256 = 0 ∨ 5 ≤ cmd.toNat % 256

/-- The machine after `k` steps; it would stop at a fault or a refusal. -/
def runSteps : Nat → State → Result
  | 0, s => .next s
  | k + 1, s =>
    match step s with
    | .next t => runSteps k t
    | .fault r => .fault r
    | .refused r => .refused r

/-- The engine after `k` draws (R55). -/
def drawMany : Nat → Engine → Engine
  | 0, e => e
  | k + 1, e => (draw (drawMany k e)).2

/-- `A_j` (R59): the array after the j-th twist since a SEED; `A_0 = Init(seed)`. -/
def twistedArray (seed : Word) : Nat → StateArray
  | 0 => initArray seed
  | j + 1 => twist (twistedArray seed j)

/-- While SEEDED = 0 the cursor is 624: reset leaves both so, and only SEED, which sets SEEDED, and NEXT,
which needs it, write the cursor (R17, R18, R21). -/
def CursorFullWhileUnseeded (s : State) : Prop :=
  s.block.seeded = false → s.block.eng.cursor.val = 624

/-- A seeded engine stands somewhere on the stream of some seed: no command puts the array and the cursor
anywhere else (R15, R17, R24; 92 D4, D18). -/
def OnSomeStream (s : State) : Prop :=
  s.block.seeded = true → ∃ (seed : Word) (k : Nat), s.block.eng = drawMany k (newEngine seed)

/-- Two states that a host can't tell apart: the same answers so far, the same events to come, the same
SEEDED, and the same engine where SEEDED = 1. The array and the cursor of an unseeded block do not count
(R21, R23). -/
def SameToHost (s t : State) : Prop :=
  s.pending = t.pending ∧ s.answered = t.answered ∧ s.block.seeded = t.block.seeded ∧
    (s.block.seeded = true → s.block.eng = t.block.eng)

/-- The array `new` that a twist makes of `old`, word by word in R58's rows: which words of the array
each iteration reads as they were, and which it reads as earlier iterations of the same twist rewrote
them. -/
def TwistRows (old new : StateArray) : Prop :=
  (∀ i : Nat, i ≤ 226 → stateRead new (wordIndex i) =
    twistStep (stateRead old (wordIndex i)) (stateRead old (wordIndex (i + 1)))
      (stateRead old (wordIndex (i + 397)))) ∧
  (∀ i : Nat, 227 ≤ i → i ≤ 622 → stateRead new (wordIndex i) =
    twistStep (stateRead old (wordIndex i)) (stateRead old (wordIndex (i + 1)))
      (stateRead new (wordIndex (i - 227)))) ∧
  stateRead new (wordIndex 623) =
    twistStep (stateRead old (wordIndex 623)) (stateRead new (wordIndex 0))
      (stateRead new (wordIndex 396))

/-- `IsSeeding seed mt`: `mt` is the array of R51 for `seed`, each word written out from the source's own
recurrence. -/
def IsSeeding (seed : Word) (mt : StateArray) : Prop :=
  stateRead mt (wordIndex 0) = seed ∧
  ∀ i : Nat, 1 ≤ i → i ≤ 623 → stateRead mt (wordIndex i) =
    1812433253#32 * (stateRead mt (wordIndex (i - 1)) ^^^ (stateRead mt (wordIndex (i - 1)) >>> 30))
      + BitVec.ofNat 32 i

end Sys2Proof.Machine
end

