-- ==== Sys2Proof/Certificates/Slice0/Obligations.lean ====
section
/-! DEFINITION. The statements for the provers. Each docstring names the rules of spec/ its statement
formalises; a clause that rests on a choice of the model says so and names the log entry. -/

open Sys2Proof Sys2Proof.Machine

/-! ### Decoding and encoding -/

/-- The requests of 95_test_vectors.md V11 and R41, word for word: the four commands with operand words
that they use or ignore, and five illegal CMD words. -/
def Obligations.DecodesRequestsOfTheSpec : Prop :=
  decode ⟨0x00000001#32, 0x00001571#32, 0xDEADBEEF#32⟩ = .ok (.seed 5489#32) ∧
  decode ⟨0x00000002#32, 0x12345678#32, 0x9ABCDEF0#32⟩ = .ok .next ∧
  decode ⟨0x00000003#32, 0x00000001#32, 0x00000000#32⟩ = .ok (.cellseed 1#32 0#32) ∧
  decode ⟨0x00000004#32, 0xFFFFFFFF#32, 0x00000000#32⟩ = .ok (.isspecial 0xFFFFFFFF#32 0#32) ∧
  decode ⟨0x00000000#32, 0#32, 0#32⟩ = .error .unassignedOpcode ∧
  decode ⟨0x00000005#32, 0#32, 0#32⟩ = .error .unassignedOpcode ∧
  decode ⟨0x000000FF#32, 0#32, 0#32⟩ = .error .unassignedOpcode ∧
  decode ⟨0x00000102#32, 0#32, 0#32⟩ = .error .reservedBits ∧
  decode ⟨0xFFFFFFFF#32, 0#32, 0#32⟩ = .error .reservedBits

/-- R42: decoding is a total function of CMD, by its two fields, and the operand words never affect
which command is selected. -/
def Obligations.DecodingFollowsTheCmdWord : Prop :=
  ∀ cmd arg0 arg1 : Word,
    (cmd.toNat / 256 ≠ 0 → ∃ e, decode ⟨cmd, arg0, arg1⟩ = .error e) ∧
    (cmd.toNat / 256 = 0 →
      (cmd.toNat % 256 = 0x01 → decode ⟨cmd, arg0, arg1⟩ = .ok (.seed arg0)) ∧
      (cmd.toNat % 256 = 0x02 → decode ⟨cmd, arg0, arg1⟩ = .ok .next) ∧
      (cmd.toNat % 256 = 0x03 → decode ⟨cmd, arg0, arg1⟩ = .ok (.cellseed arg0 arg1)) ∧
      (cmd.toNat % 256 = 0x04 → decode ⟨cmd, arg0, arg1⟩ = .ok (.isspecial arg0 arg1)) ∧
      (cmd.toNat % 256 ≠ 0x01 → cmd.toNat % 256 ≠ 0x02 → cmd.toNat % 256 ≠ 0x03 →
        cmd.toNat % 256 ≠ 0x04 → ∃ e, decode ⟨cmd, arg0, arg1⟩ = .error e))

/-- R41, R42, R43: the illegal CMD words are exactly those the decoder refuses, and a request is legal
exactly when it is not one of them. -/
def Obligations.IllegalRequestsAreTheUndecoded : Prop :=
  ∀ r : Request,
    (IllegalCmd r.cmd ↔ ∃ e, decode r = .error e) ∧ (r.legal = true ↔ ¬ IllegalCmd r.cmd)

/-- R38, R39, R41: a request decodes to a command exactly when its CMD word is the command's and its
operand words agree with the command's on those the command uses; the others may hold anything. -/
def Obligations.DecodedCommandFixesItsWords : Prop :=
  ∀ (r : Request) (i : Instr), decode r = .ok i ↔
    r.cmd = (encode i).cmd ∧
    match i with
    | .seed s => r.arg0 = s
    | .next => True
    | .cellseed x z => r.arg0 = x ∧ r.arg1 = z
    | .isspecial x z => r.arg0 = x ∧ r.arg1 = z

/-- R38, R41, R44, R45: every command, at every value of its operands, comes back from the 96 bits of its
encoded request; no bit of a request is lost between its three words and its 96 bits; and an ignored
operand word is written as 0. -/
def Obligations.RequestsRoundTripBitForBit : Prop :=
  (∀ i : Instr, i.wellFormed = true →
    decodeTableWord Config.requestBits (requestBits (encode i)).toNat = some i) ∧
  (∀ r : Request, requestOfBits (requestBits r) = r) ∧
  (∀ b : BitVec Config.requestBits, requestBits (requestOfBits b) = b) ∧
  (∀ seed : Word, (encode (.seed seed)).arg1 = 0#32) ∧
  (encode .next).arg0 = 0#32 ∧ (encode .next).arg1 = 0#32

/-- R8, R39, R47: a host integer is presented as its value modulo 2^32; a 32-bit signed coordinate can be
read back from its pattern; and R47's five encoded words. -/
def Obligations.HostIntegersArePresentedModulo : Prop :=
  (∀ v : Int, ((trunc32 v).toNat : Int) = v % 4294967296) ∧
  (∀ w : Word, trunc32 (asI32 w) = w) ∧
  (∀ v : Int, -2147483648 ≤ v → v ≤ 2147483647 → asI32 (trunc32 v) = v) ∧
  cellOperand (-1) = 0xFFFFFFFF#32 ∧ cellOperand (-2147483648) = 0x80000000#32 ∧
  cellOperand 2147483647 = 0x7FFFFFFF#32 ∧ seedOperand 5489 = 0x00001571#32 ∧
  seedOperand 0 = 0x00000000#32

/-- R45, R46: the assembler accepts a line exactly when its literals are in range and refuses every other
line as out of range (it never wraps). The ranges of both operand kinds; a decimal literal stands for its
trunc32 pattern and a hexadecimal one in range is the pattern itself. Each line gives the one command of
its mnemonic, or the expansion of its pseudo-command, on its literals' words, whichever of the two forms
each literal has. -/
def Obligations.AssemblerRefusesOutOfRange : Prop :=
  (∀ l : Line, (∃ hs, assemble l = .ok hs) ↔ l.wellFormed = true) ∧
  (∀ l : Line, l.wellFormed = false → assemble l = .error .outOfRange) ∧
  (∀ v : Int, Literal.inU32 (.dec v) = true ↔ -2147483648 ≤ v ∧ v ≤ 4294967295) ∧
  (∀ v : Int, Literal.inI32 (.dec v) = true ↔ -2147483648 ≤ v ∧ v ≤ 2147483647) ∧
  (∀ v : Nat, (Literal.inU32 (.hex v) = true ↔ v ≤ 0xFFFFFFFF) ∧
    (Literal.inI32 (.hex v) = true ↔ v ≤ 0xFFFFFFFF)) ∧
  (∀ v : Int, literalWord (.dec v) = trunc32 v) ∧
  (∀ v : Nat, v ≤ 0xFFFFFFFF → (literalWord (.hex v)).toNat = v) ∧
  (∀ l : Literal, l.inU32 = true → assemble (.seed l) = .ok [.issue (.seed (literalWord l))]) ∧
  assemble .next = .ok [.issue .next] ∧
  (∀ x z : Literal, x.inI32 = true → z.inI32 = true →
    assemble (.cellseed x z) = .ok [.issue (.cellseed (literalWord x) (literalWord z))] ∧
    assemble (.isspecial x z) = .ok [.issue (.isspecial (literalWord x) (literalWord z))] ∧
    assemble (.seedcell x z) =
      .ok [.issue (.cellseed (literalWord x) (literalWord z)), .seedResult]) ∧
  (∀ k : Nat, assemble (.skip k) = .ok (List.replicate k (.issue .next)))

/-! ### The port: steps, errors, reset, order -/

/-- R88: where the port's oldest event is a request that decodes, the step is `exec` of the decoded
command on the state with that event taken. -/
def Obligations.StepRunsTheDecodedCommand : Prop :=
  ∀ (s : State) (r : Request) (rest : List PortEvent) (i : Instr),
    s.pending = .request r :: rest → decode r = .ok i → step s = exec i { s with pending := rest }

/-- R30, R84, R85, R88: a step is total. A request gets exactly one response, a reset and an abandoned
request get none. Two things here are the model's choice: that each step takes its own event from the
port and no other, so that what a host has queued is still pending after a reset (log entry 3), and that
with nothing pending the block stays idle (log entry 6). -/
def Obligations.EveryStepCompletes : Prop :=
  ∀ s : State,
    (∀ r rest, s.pending = .request r :: rest →
      ∃ t resp, step s = .next t ∧ t.pending = rest ∧ t.answered = s.answered ++ [resp]) ∧
    (∀ c rest, s.pending = .reset c :: rest →
      ∃ t, step s = .next t ∧ t.pending = rest ∧ t.answered = s.answered) ∧
    (∀ r c rest, s.pending = .abandoned r c :: rest →
      ∃ t, step s = .next t ∧ t.pending = rest ∧ t.answered = s.answered) ∧
    (s.pending = [] → step s = .next s)

/-- R33: requests are answered in acceptance order, one response each; after `k` of them the first `k`
responses are out and no more, and the rest are still to come. -/
def Obligations.ResponsesComeInAcceptanceOrder : Prop :=
  ∀ (rs : List Request) (s : State), s.pending = rs.map .request →
    ∃ resps : List Response, resps.length = rs.length ∧
      ∀ k : Nat, k ≤ rs.length → ∃ t, runSteps k s = .next t ∧
        t.pending = (rs.drop k).map .request ∧ t.answered = s.answered ++ resps.take k

/-- R69: the three status codes, and no code from 0x03 on. -/
def Obligations.StatusCodesAreTheThree : Prop :=
  statusCode .ok = 0x00#8 ∧ statusCode .illegalCmd = 0x01#8 ∧ statusCode .unseeded = 0x02#8 ∧
  ∀ st : Status, (statusCode st).toNat < 3

/-- R71: a CMD word with a nonzero reserved field or an unassigned opcode is answered with ILLEGAL_CMD
(code 0x01) and RESULT 0, for any operand words and in any state, and changes nothing else. -/
def Obligations.IllegalCommandsAreAnswered : Prop :=
  statusCode .illegalCmd = 0x01#8 ∧
  ∀ (s : State) (cmd arg0 arg1 : Word) (rest : List PortEvent),
    s.pending = .request ⟨cmd, arg0, arg1⟩ :: rest → IllegalCmd cmd →
    step s = .next { s with pending := rest, answered := s.answered ++ [⟨.illegalCmd, 0#32⟩] }

/-- R72: NEXT while SEEDED = 0 is answered with UNSEEDED (code 0x02) and RESULT 0 and changes nothing,
and no other command ever answers UNSEEDED. -/
def Obligations.OnlyNextReportsUnseeded : Prop :=
  statusCode .unseeded = 0x02#8 ∧
  (∀ s : State, s.block.seeded = false →
    exec .next s = .next { s with answered := s.answered ++ [⟨.unseeded, 0#32⟩] }) ∧
  (∀ (i : Instr) (s t : State) (w : Word), exec i s = .next t →
    t.answered = s.answered ++ [⟨.unseeded, w⟩] → i = .next ∧ s.block.seeded = false)

/-- R73: each request is answered by one status; it is ILLEGAL_CMD exactly for an illegal CMD word,
whatever the state, and UNSEEDED exactly for NEXT while SEEDED = 0; nothing else is an error. -/
def Obligations.DecodingErrorsComeFirst : Prop :=
  ∀ (s : State) (r : Request) (rest : List PortEvent), s.pending = .request r :: rest →
    ∃ t st w, step s = .next t ∧ t.answered = s.answered ++ [⟨st, w⟩] ∧
      (st = .illegalCmd ↔ IllegalCmd r.cmd) ∧
      (st = .unseeded ↔ r.cmd = 0x00000002#32 ∧ s.block.seeded = false)

/-- R70: an error response carries the code of its error and RESULT 0; the command has no other effect on
the block, and the next step does what it would have done had the failing request not been issued. -/
def Obligations.ErrorsChangeNothing : Prop :=
  (∀ (e : CmdError) (s : State), raiseError e s =
    .next { s with answered := s.answered ++ [⟨errorStatus e, 0#32⟩] }) ∧
  statusCode (errorStatus .illegalCmd) = 0x01#8 ∧ statusCode (errorStatus .unseeded) = 0x02#8 ∧
  (∀ (s t : State) (r : Request) (rest : List PortEvent) (st : Status) (w : Word),
    s.pending = .request r :: rest → step s = .next t →
    t.answered = s.answered ++ [⟨st, w⟩] → st ≠ .ok →
      w = 0#32 ∧ t.block = s.block ∧ t.pending = rest ∧
      ∃ u v new, step { s with pending := rest } = .next u ∧ step t = .next v ∧
        v.block = u.block ∧ v.pending = u.pending ∧
        u.answered = s.answered ++ new ∧ v.answered = t.answered ++ new)

/-- R40: the RESULT word of each command where its status is OK; and RESULT 0 in every response whose
status is not OK, an illegal request's among them. -/
def Obligations.ResultWordsByCommand : Prop :=
  (∀ (i : Instr) (s t : State) (resp : Response),
    exec i s = .next t → t.answered = s.answered ++ [resp] → resp.status = .ok →
      (∀ seed, i = .seed seed → resp.result = 0#32) ∧
      (i = .next → resp.result = (draw s.block.eng).1) ∧
      (∀ x z, i = .cellseed x z → resp.result = derivedSeed x z) ∧
      (∀ x z, i = .isspecial x z →
        resp.result = (if seedIsSpecial (derivedSeed x z) = true then 1#32 else 0#32) ∧
        ∀ k : Nat, 1 ≤ k → resp.result.getLsbD k = false)) ∧
  (∀ (s t : State) (r : Request) (rest : List PortEvent) (resp : Response),
    s.pending = .request r :: rest → step s = .next t → t.answered = s.answered ++ [resp] →
      resp.status ≠ .ok → resp.result = 0#32)

/-- R84, R85: reset asserted between commands leaves SEEDED = 0 and CURSOR = 624, gives no response, and
is, with a reset during a command, the only way SEEDED returns to 0. Two clauses are the model's choice:
the array holds the contents that come with the event, whatever they are (its form of "unspecified", log
entry 2), and a reset takes only its own event from the port (log entry 3). -/
def Obligations.ResetPutsTheBlockBack : Prop :=
  (∀ (s : State) (c : StateArray) (rest : List PortEvent), s.pending = .reset c :: rest →
    ∃ t, step s = .next t ∧ t.block.seeded = false ∧ t.block.eng.cursor.val = 624 ∧
      t.block.eng.mt = c ∧ t.pending = rest ∧ t.answered = s.answered) ∧
  (∀ s t : State, step s = .next t → s.block.seeded = true → t.block.seeded = false →
    ∃ c rest, s.pending = .reset c :: rest ∨ ∃ r, s.pending = .abandoned r c :: rest)

/-- R85: a command abandoned by reset, legal or not, gives no response, and the state after it is the one
a reset between commands leaves, whatever the command was. The event's form, and that it takes only
itself from the port, are the model's choice (log entries 2 and 3). -/
def Obligations.AbandonedCommandsLeaveReset : Prop :=
  ∀ (s : State) (r : Request) (c : StateArray) (rest : List PortEvent),
    s.pending = .abandoned r c :: rest →
      step s = step { s with pending := .reset c :: rest } ∧
      ∃ t, step s = .next t ∧ t.answered = s.answered ∧ t.pending = rest ∧
        t.block.seeded = false ∧ t.block.eng.cursor.val = 624

/-- R18: SEEDED is 0 in the reset state and after a reset; SEED sets it to 1 and leaves it 1; no command clears it and no other
command writes it; NEXT reads it and, where it is 0, raises UNSEEDED; the other commands answer alike
and leave the same engine whatever it holds. -/
def Obligations.OnlySeedSetsSeeded : Prop :=
  State.reset.block.seeded = false ∧
  (∀ (s : State) (c : StateArray) (rest : List PortEvent), s.pending = .reset c :: rest →
    ∃ t, step s = .next t ∧ t.block.seeded = false) ∧
  (∀ (i : Instr) (s t : State), exec i s = .next t →
    ((∃ seed, i = .seed seed) → t.block.seeded = true) ∧
    ((∀ seed, i ≠ .seed seed) → t.block.seeded = s.block.seeded)) ∧
  (∀ s : State, s.block.seeded = false →
    exec .next s = .next { s with answered := s.answered ++ [⟨.unseeded, 0#32⟩] }) ∧
  (∀ (i : Instr) (s : State) (b : Bool), i ≠ .next →
    ∃ t u, exec i s = .next t ∧ exec i { s with block := { s.block with seeded := b } } = .next u ∧
      u.answered = t.answered ∧ u.block.eng = t.block.eng)

/-- R17: how each command moves the cursor. SEED sets it to 624, a NEXT that draws sets it to 1 from 624
and adds one otherwise, and every other answer leaves it; so it is between 1 and 624 after a draw. -/
def Obligations.CursorMovesOnlyAsStated : Prop :=
  ∀ s t : State, step s = .next t → ∀ (r : Request) (rest : List PortEvent),
    s.pending = .request r :: rest →
    (∀ seed, decode r = .ok (.seed seed) → t.block.eng.cursor.val = 624) ∧
    (decode r = .ok .next → s.block.seeded = true →
      t.block.eng.cursor.val =
        (if s.block.eng.cursor.val = 624 then 1 else s.block.eng.cursor.val + 1) ∧
      1 ≤ t.block.eng.cursor.val ∧ t.block.eng.cursor.val ≤ 624) ∧
    (decode r = .ok .next → s.block.seeded = false →
      t.block.eng.cursor = s.block.eng.cursor) ∧
    (∀ x z, decode r = .ok (.cellseed x z) ∨ decode r = .ok (.isspecial x z) →
      t.block.eng.cursor = s.block.eng.cursor) ∧
    (∀ e, decode r = .error e → t.block.eng.cursor = s.block.eng.cursor)

/-- R13, R16: the 10-bit register holds the cursor's value, and no value from 625 to 1023. -/
def Obligations.CursorRegisterHoldsTheCursor : Prop :=
  ∀ e : Engine, (cursorRegister e).toNat = e.cursor.val ∧ (cursorRegister e).toNat ≤ 624

/-! ### Reset and the invariants of every step -/

/-- R21: SEEDED is 0 and CURSOR is 624 after reset. (Nothing is said of the words of the array: log
entry 1. That the port is empty is the model's choice, log entry 3.) -/
def Obligations.ResetStateIsUnseeded : Prop :=
  State.reset.block.seeded = false ∧ State.reset.block.eng.cursor.val = 624 ∧
  State.reset.pending = [] ∧ State.reset.answered = []

/-- R17, R18, R21: every step keeps "while SEEDED = 0 the cursor is 624". -/
def Obligations.UnseededCursorStaysFull : Prop :=
  ∀ s t : State, CursorFullWhileUnseeded s → step s = .next t → CursorFullWhileUnseeded t

/-- R21: "while SEEDED = 0 the cursor is 624" holds at reset. -/
def Obligations.UnseededCursorFullAtReset : Prop := CursorFullWhileUnseeded State.reset

/-- R15, R17, R24: every step keeps "a seeded engine stands somewhere on the stream of some seed". -/
def Obligations.EngineStaysOnSomeStream : Prop :=
  ∀ s t : State, OnSomeStream s → step s = .next t → OnSomeStream t

/-- R18, R21: "a seeded engine stands somewhere on the stream of some seed" holds at reset. -/
def Obligations.OnSomeStreamAtReset : Prop := OnSomeStream State.reset

/-- R21, R23: a step keeps two states indistinguishable to the host: while SEEDED = 0 neither the array
nor the cursor influences any answer, now or later. -/
def Obligations.UnseededEngineStaysHidden : Prop :=
  ∀ s t : State, SameToHost s t →
    ∃ s' t', step s = .next s' ∧ step t = .next t' ∧ SameToHost s' t'

/-- R21, R84: whatever the array and the cursor hold in an unseeded block, the same events get the same
answers, for any number of steps; and once a SEED has come, the two blocks are equal. -/
def Obligations.ResetContentsNeverShow : Prop :=
  ∀ (n : Nat) (evs : List PortEvent) (out : List Response) (e e' : Engine),
    ∃ t t', runSteps n ⟨⟨e, false⟩, evs, out⟩ = .next t ∧
      runSteps n ⟨⟨e', false⟩, evs, out⟩ = .next t' ∧
      t.answered = t'.answered ∧ t.pending = t'.pending ∧
      t.block.seeded = t'.block.seeded ∧ (t.block.seeded = true → t.block = t'.block)

/-! ### The engine: SEED and NEXT -/

/-- R50: the seeding step in exact arithmetic, reduced modulo 2^32; its XOR changes only bits 1:0 of `p`;
and R50's example. -/
def Obligations.SeedStepWrapsToAWord : Prop :=
  (∀ (p : Word) (i : Nat), 1 ≤ i → i ≤ 623 →
    (seedStep p i).toNat = (1812433253 * (p.toNat ^^^ (p.toNat / 1073741824)) + i) % 4294967296) ∧
  (∀ p : Word, (p >>> 30).toNat ≤ 3 ∧
    ∀ k : Nat, 2 ≤ k → (p ^^^ (p >>> 30)).getLsbD k = p.getLsbD k) ∧
  seedStep 5489#32 1 = 1301868182#32

/-- R51: `Init(seed)` is the one array that meets the seeding recurrence, and R51's corner cases. -/
def Obligations.InitIsTheSeedingRecurrence : Prop :=
  (∀ (seed : Word) (mt : StateArray), mt = initArray seed ↔ IsSeeding seed mt) ∧
  stateRead (initArray 0#32) (wordIndex 0) = 0#32 ∧
  stateRead (initArray 0#32) (wordIndex 1) = 1#32 ∧
  stateRead (initArray 0#32) (wordIndex 2) = 1812433255#32 ∧
  stateRead (initArray 5489#32) (wordIndex 1) = 1301868182#32 ∧
  stateRead (initArray 5489#32) (wordIndex 2) = 2938499221#32 ∧
  stateRead (initArray 5489#32) (wordIndex 3) = 2950281878#32 ∧
  stateRead (initArray 5489#32) (wordIndex 623) = 79981964#32

/-- R56: SEED answers OK, 0 in every state, for every seed; the array becomes the seeding recurrence's,
word by word, the cursor 624 (no twist has run), SEEDED 1. -/
def Obligations.SeedConstructsTheEngine : Prop :=
  ∀ (seed : Word) (s : State), ∃ t, exec (.seed seed) s = .next t ∧
    IsSeeding seed t.block.eng.mt ∧ t.block.eng.cursor.val = 624 ∧ t.block.seeded = true ∧
    t.pending = s.pending ∧ t.answered = s.answered ++ [⟨.ok, 0#32⟩]

/-- R31, R56: the block after SEED depends on ARG0 alone, whatever the block before it, so a second SEED
with the same operand leaves the same block. -/
def Obligations.SeedDiscardsTheOldStream : Prop :=
  ∀ (seed : Word) (s s' : State), ∃ t t', exec (.seed seed) s = .next t ∧
    exec (.seed seed) s' = .next t' ∧ t.block = t'.block ∧
    ∃ u, exec (.seed seed) t = .next u ∧ u.block = t.block

/-- R53: the two addends of x share no bit, so x is a bitwise OR with x[31] = a[31] and x[30:0] = b[30:0],
and odd(x) is b[0]; the result; and R53's corner cases. -/
def Obligations.TwistStepSelectsItsBits : Prop :=
  (∀ a b c : Word,
    (a &&& 0x80000000#32) + (b &&& 0x7FFFFFFF#32) = (a &&& 0x80000000#32) ||| (b &&& 0x7FFFFFFF#32) ∧
    ((a &&& 0x80000000#32) + (b &&& 0x7FFFFFFF#32)).getLsbD 31 = a.getLsbD 31 ∧
    (∀ k : Nat, k < 31 →
      ((a &&& 0x80000000#32) + (b &&& 0x7FFFFFFF#32)).getLsbD k = b.getLsbD k) ∧
    twistStep a b c = c ^^^ (if b.getLsbD 0 = true
      then (((a &&& 0x80000000#32) + (b &&& 0x7FFFFFFF#32)) >>> 1) ^^^ 0x9908B0DF#32
      else ((a &&& 0x80000000#32) + (b &&& 0x7FFFFFFF#32)) >>> 1)) ∧
  (∀ c : Word, twistStep 0#32 0#32 c = c) ∧
  twistStep 0#32 1#32 0#32 = 0x9908B0DF#32 ∧
  twistStep 0x80000000#32 0#32 0#32 = 0x40000000#32 ∧
  twistStep 0xFFFFFFFF#32 0xFFFFFFFF#32 0xFFFFFFFF#32 = 0x1908B0DF#32

/-- R52, R58, R90: the in-place twist is the one array whose words are made in the rows of R58, reading
old words at 0 .. 226, new words at distance 227 from 227 on, and two new words at 623. -/
def Obligations.TwistReadsInPlace : Prop :=
  ∀ old new : StateArray, new = twist old ↔ TwistRows old new

/-- R54: the tempering transform step by step, that it is a bijection on u32, and R54's corner cases. -/
def Obligations.TemperIsABijection : Prop :=
  (∀ y0 y1 y2 y3 : Word,
    y1 = y0 ^^^ (y0 >>> 11) → y2 = y1 ^^^ ((y1 <<< 7) &&& 0x9D2C5680#32) →
    y3 = y2 ^^^ ((y2 <<< 15) &&& 0xEFC60000#32) → temper y0 = y3 ^^^ (y3 >>> 18)) ∧
  Function.Bijective temper ∧
  temper 0#32 = 0#32 ∧ temper 1#32 = 0x00400091#32 ∧ temper 0x80000000#32 = 0x88102204#32 ∧
  temper 0xFFFFFFFF#32 = 0x6FE01BF8#32

/-- R55, R57: a NEXT of a seeded block whose cursor is below 624 answers OK with the tempered word at the
cursor, adds one to the cursor, and leaves the array, SEEDED and the port's other side alone. -/
def Obligations.NextEmitsTheWordAtTheCursor : Prop :=
  ∀ s : State, s.block.seeded = true → s.block.eng.cursor.val < 624 →
    ∃ t, exec .next s = .next t ∧
      t.answered = s.answered ++
        [⟨.ok, temper (stateRead s.block.eng.mt (wordIndex s.block.eng.cursor.val))⟩] ∧
      t.block.eng.cursor.val = s.block.eng.cursor.val + 1 ∧ t.block.eng.mt = s.block.eng.mt ∧
      t.block.seeded = true ∧ t.pending = s.pending

/-- R55, R57, R58: a NEXT of a seeded block whose cursor is 624 twists the array in place, answers OK with
the tempered new word 0, and leaves the cursor at 1. -/
def Obligations.NextTwistsAnExhaustedArray : Prop :=
  ∀ s : State, s.block.seeded = true → s.block.eng.cursor.val = 624 →
    ∃ t, exec .next s = .next t ∧ TwistRows s.block.eng.mt t.block.eng.mt ∧
      t.answered = s.answered ++ [⟨.ok, temper (stateRead t.block.eng.mt (wordIndex 0))⟩] ∧
      t.block.eng.cursor.val = 1 ∧ t.block.seeded = true ∧ t.pending = s.pending

/-- R59: after a SEED in any state, the k-th NEXT answers the tempered word `(k-1) mod 624` of the array
after the `ceil(k/624)`-th twist, and it is the one that twists exactly when k mod 624 = 1. -/
def Obligations.StreamFollowsTheTwistSchedule : Prop :=
  ∀ (s : State) (seed : Word) (k : Nat), 1 ≤ k →
    ∃ t u, runSteps k (presentAll (.seed seed :: List.replicate k .next) s) = .next t ∧
      step t = .next u ∧
      t.block.eng.mt = twistedArray seed ((k - 1 + 623) / 624) ∧
      u.block.eng.mt = twistedArray seed ((k + 623) / 624) ∧
      (t.block.eng.cursor.val = 624 ↔ k % 624 = 1) ∧
      u.answered = t.answered ++
        [⟨.ok, temper (stateRead (twistedArray seed ((k + 623) / 624)) (wordIndex (k - 1)))⟩]

/-- R60: the first draw of a fresh engine needs only the words 0, 1 and 397 of `Init(seed)`, and R60's
example. -/
def Obligations.FirstWordOfAFreshEngine : Prop :=
  (∀ seed : Word, (draw (newEngine seed)).1 =
    temper (twistStep (stateRead (initArray seed) (wordIndex 0))
      (stateRead (initArray seed) (wordIndex 1)) (stateRead (initArray seed) (wordIndex 397)))) ∧
  stateRead (initArray 5489#32) (wordIndex 0) = 5489#32 ∧
  stateRead (initArray 5489#32) (wordIndex 1) = 1301868182#32 ∧
  twistStep 5489#32 1301868182#32 (stateRead (initArray 5489#32) (wordIndex 397)) = 0x9B0AFA27#32 ∧
  temper 0x9B0AFA27#32 = 3499211612#32

/-- R46: SKIP k of a seeded block draws k words, answers k OKs and touches nothing else; SEEDCELL seeds
the persistent engine from the cell's derived seed. -/
def Obligations.PseudoCommandsExpand : Prop :=
  (∀ (k : Nat) (s : State), s.block.seeded = true →
    ∃ t resps, runScript (expandSkip k) s = some t ∧
      t.block = ⟨drawMany k s.block.eng, true⟩ ∧ t.pending = s.pending ∧
      t.answered = s.answered ++ resps ∧ resps.length = k ∧ ∀ r ∈ resps, r.status = .ok) ∧
  (∀ (x z : Word) (s : State),
    ∃ t, runScript (expandSeedcell x z) s = some t ∧
      t.block = ⟨newEngine (derivedSeed x z), true⟩ ∧ t.pending = s.pending ∧
      t.answered = s.answered ++ [⟨.ok, derivedSeed x z⟩, ⟨.ok, 0#32⟩])

/-- R24, R30, R57: what the engine commands leave unchanged. SEED writes all of the block and nothing
else; NEXT leaves SEEDED, and the array too unless it twists, and all of the block where it is
UNSEEDED; both add one response and take nothing from the port. -/
def Obligations.EngineCommandFrames : Prop :=
  (∀ (seed : Word) (s t : State), exec (.seed seed) s = .next t →
    t.pending = s.pending ∧ ∃ resp, t.answered = s.answered ++ [resp]) ∧
  (∀ s t : State, exec .next s = .next t →
    t.pending = s.pending ∧ (∃ resp, t.answered = s.answered ++ [resp]) ∧
    t.block.seeded = s.block.seeded ∧
    (s.block.eng.cursor.val ≠ 624 →
      ∀ i : Fin 624, stateRead t.block.eng.mt i = stateRead s.block.eng.mt i) ∧
    (s.block.seeded = false → t.block = s.block))

/-! ### Seed derivation and the predicate: CELLSEED and ISSPECIAL -/

/-- R61: the low 32 bits of the full product; the same whether the factors are read signed or unsigned
or in any number of bits; the 16-bit-limb formula; and R61's corner cases. -/
def Obligations.Mul32KeepsTheLowWord : Prop :=
  (∀ a b : Word, (mul32 a b).toNat = a.toNat * b.toNat % 4294967296) ∧
  (∀ m n : Int, trunc32 (m * n) = mul32 (trunc32 m) (trunc32 n)) ∧
  (∀ a b : Word, mul32 a b = BitVec.ofNat 32
    (a.toNat % 65536 * (b.toNat % 65536) +
      65536 * ((a.toNat / 65536 * (b.toNat % 65536) + a.toNat % 65536 * (b.toNat / 65536)) % 65536))) ∧
  mul32 0xFFFFFFFF#32 0x1F1F1F1F#32 = 0xE0E0E0E1#32 ∧
  mul32 0x80000000#32 0x1F1F1F1F#32 = 0x80000000#32 ∧
  mul32 0x00010000#32 0x00010000#32 = 0#32

/-- R62: the seed of a cell; for a fixed cellZ a bijection from cellX's pattern to the seed; and R62's
colliding pairs. -/
def Obligations.SeedDerivationIsBijective : Prop :=
  (∀ x z : Int, cellSeed x z = (trunc32 x * 0x1F1F1F1F#32) ^^^ trunc32 z) ∧
  (∀ z : Word, Function.Bijective (fun x : Word => derivedSeed x z)) ∧
  (∀ x z : Word, derivedSeed x z = (x * 0x1F1F1F1F#32) ^^^ z) ∧
  cellSeed 1 1 = 0x1F1F1F1E#32 ∧ cellSeed (-1) (-1) = 0x1F1F1F1E#32 ∧
  cellSeed (-1) 0 = 0xE0E0E0E1#32 ∧ cellSeed 1 (-2) = 0xE0E0E0E1#32

/-- R63: the CMD word 0x00000003 with its two operand words is CELLSEED; it answers OK with `(ARG0 * 0x1F1F1F1F) ^ ARG1` in every state, seeded or not, which is the
seed of the cell whose coordinates the operands present, and writes nothing; R63's corner cases and
worked example. -/
def Obligations.CellseedAnswersTheDerivedSeed : Prop :=
  (∀ x z : Word, decode ⟨0x00000003#32, x, z⟩ = .ok (.cellseed x z)) ∧
  (∀ (x z : Word) (s : State), exec (.cellseed x z) s =
    .next { s with answered := s.answered ++ [⟨.ok, (x * 0x1F1F1F1F#32) ^^^ z⟩] }) ∧
  (∀ (x z : Int) (s : State), exec (.cellseed (trunc32 x) (trunc32 z)) s =
    .next { s with answered := s.answered ++ [⟨.ok, cellSeed x z⟩] }) ∧
  cellSeed 0 0 = 0#32 ∧ cellSeed 0 (-1) = 0xFFFFFFFF#32 ∧ cellSeed (-2147483648) 0 = 0x80000000#32 ∧
  cellSeed 2147483647 (-2147483648) = 0xE0E0E0E1#32 ∧ cellSeed 1 0 = 522133279#32

/-- R64, R65 with R60: ISSPECIAL answers OK in every state, seeded or not, with 1 where the first word of
an engine seeded with the derived seed leaves unsigned remainder 0 modulo 10, else 0, and writes
nothing. -/
def Obligations.IsspecialEvaluatesThePredicate : Prop :=
  ∀ (x z : Word) (s : State) (mt : StateArray), IsSeeding ((x * 0x1F1F1F1F#32) ^^^ z) mt →
    exec (.isspecial x z) s = .next { s with answered := s.answered ++
      [⟨.ok, if (temper (twistStep (stateRead mt (wordIndex 0)) (stateRead mt (wordIndex 1))
        (stateRead mt (wordIndex 397)))).toNat % 10 = 0 then 1#32 else 0#32⟩] }

/-- R66: seed and predicate depend only on the coordinates modulo 2^32, the block's 32-bit operands lose
nothing, and R66's examples. -/
def Obligations.CoordinatesCountModulo : Prop :=
  (∀ x z j k : Int, cellSeed (x + 4294967296 * j) (z + 4294967296 * k) = cellSeed x z ∧
    isSpecial (x + 4294967296 * j) (z + 4294967296 * k) = isSpecial x z) ∧
  (∀ x z x' z' : Int, trunc32 x = trunc32 x' → trunc32 z = trunc32 z' →
    cellSeed x z = cellSeed x' z' ∧ isSpecial x z = isSpecial x' z') ∧
  (∀ (x z : Int) (s : State), exec (.isspecial (trunc32 x) (trunc32 z)) s =
    .next { s with answered := s.answered ++ [⟨.ok, if isSpecial x z = true then 1#32 else 0#32⟩] }) ∧
  cellSeed 4294967296 0 = 0#32 ∧ isSpecial 4294967296 0 = isSpecial 0 0 ∧
  cellSeed 1 4294967296 = cellSeed 1 0 ∧ isSpecial 1 4294967296 = isSpecial 1 0

/-- R67: ISSPECIAL x, z answers 1 exactly when the NEXT after SEEDCELL x, z draws a word divisible by 10;
the sequence reseeds and advances the persistent engine and sets SEEDED, ISSPECIAL leaves the block. -/
def Obligations.IsspecialAgreesWithSeedcellNext : Prop :=
  ∀ (x z : Word) (s : State), ∃ t u b w,
    exec (.isspecial x z) s = .next t ∧ t.block = s.block ∧ t.answered = s.answered ++ [⟨.ok, b⟩] ∧
    runScript (expandSeedcell x z ++ [.issue .next]) s = some u ∧
    u.answered = s.answered ++ [⟨.ok, derivedSeed x z⟩, ⟨.ok, 0#32⟩, ⟨.ok, w⟩] ∧
    u.block = ⟨drawMany 1 (newEngine (derivedSeed x z)), true⟩ ∧ u.block.eng.cursor.val = 1 ∧
    (b = 1#32 ↔ w.toNat % 10 = 0) ∧ (b = 0#32 ↔ w.toNat % 10 ≠ 0)

/-- R68: CELLSEED and ISSPECIAL give the same response in any two states. -/
def Obligations.CellCommandsAreDeterministic : Prop :=
  ∀ (x z : Word) (s s' : State),
    (∃ t t' resp, exec (.cellseed x z) s = .next t ∧ exec (.cellseed x z) s' = .next t' ∧
      t.answered = s.answered ++ [resp] ∧ t'.answered = s'.answered ++ [resp]) ∧
    (∃ t t' resp, exec (.isspecial x z) s = .next t ∧ exec (.isspecial x z) s' = .next t' ∧
      t.answered = s.answered ++ [resp] ∧ t'.answered = s'.answered ++ [resp])

/-- R19, R24, R65: CELLSEED and ISSPECIAL leave the whole block unchanged, every word of the array, the
cursor and SEEDED; each adds one response and takes nothing from the port. -/
def Obligations.CellCommandFrames : Prop :=
  ∀ (x z : Word) (s t : State),
    exec (.cellseed x z) s = .next t ∨ exec (.isspecial x z) s = .next t →
      (∀ i : Fin 624, stateRead t.block.eng.mt i = stateRead s.block.eng.mt i) ∧
      t.block.eng.cursor = s.block.eng.cursor ∧ t.block.seeded = s.block.seeded ∧
      t.pending = s.pending ∧ ∃ resp, t.answered = s.answered ++ [resp]

/-- R57, R65: a NEXT after a CELLSEED or an ISSPECIAL answers the word it would have answered without
it, and leaves the same block. -/
def Obligations.CellCommandsDoNotDisturbTheStream : Prop :=
  ∀ (i : Instr) (x z : Word) (s : State), i = .cellseed x z ∨ i = .isspecial x z →
    ∃ t u v resp, exec i s = .next t ∧ exec .next s = .next u ∧ exec .next t = .next v ∧
      u.answered = s.answered ++ [resp] ∧ v.answered = t.answered ++ [resp] ∧ v.block = u.block
end

