-- ==== Sys2Proof/Laws/Decode.lean ====
section
/-! SUPPORT. The decoder on each CMD word of the opcode map, the fields of a CMD word as numbers, and the
two outcomes of decoding. -/

namespace Sys2Proof

theorem decodeCmd_seed : decodeCmd 0x00000001#32 = .ok .seed := by decide
theorem decodeCmd_next : decodeCmd 0x00000002#32 = .ok .next := by decide
theorem decodeCmd_cellseed : decodeCmd 0x00000003#32 = .ok .cellseed := by decide
theorem decodeCmd_isspecial : decodeCmd 0x00000004#32 = .ok .isspecial := by decide

theorem opcodeField_toNat (cmd : Word) : (opcodeField cmd).toNat = cmd.toNat % 256 := by
  simp [opcodeField, BitVec.extractLsb'_toNat]

theorem rsvdField_toNat (cmd : Word) : (rsvdField cmd).toNat = cmd.toNat / 256 := by
  have : cmd.toNat < 2 ^ 32 := cmd.isLt
  simp only [rsvdField, BitVec.extractLsb'_toNat, Nat.shiftRight_eq_div_pow]
  omega

theorem rsvdField_zero_iff (cmd : Word) : rsvdField cmd = 0#24 ↔ cmd.toNat / 256 = 0 := by
  rw [← rsvdField_toNat, ← BitVec.toNat_inj]
  rfl

theorem opcodeField_iff (cmd : Word) (k : BitVec 8) :
    opcodeField cmd = k ↔ cmd.toNat % 256 = k.toNat := by
  rw [← opcodeField_toNat, ← BitVec.toNat_inj]

/-- The 96 bits of a request as a number, its three words side by side. -/
theorem requestBits_toNat (r : Request) :
    (requestBits r).toNat = r.cmd.toNat + 2 ^ 32 * r.arg0.toNat + 2 ^ 64 * r.arg1.toNat := by
  have := r.cmd.isLt
  have := r.arg0.isLt
  have := r.arg1.isLt
  simp only [requestBits, BitVec.toNat_ofNat, Config.requestBits]
  omega

/-- A decoded request carries one of the four CMD words, and its command is made of its operand
words. -/
theorem decode_ok_cases {r : Request} {i : Instr} (h : decode r = .ok i) :
    (r.cmd = 1#32 ∧ i = .seed r.arg0) ∨ (r.cmd = 2#32 ∧ i = .next) ∨
      (r.cmd = 3#32 ∧ i = .cellseed r.arg0 r.arg1) ∨ (r.cmd = 4#32 ∧ i = .isspecial r.arg0 r.arg1) := by
  have word : ∀ k : Nat, k < 256 → r.cmd.toNat / 256 = 0 → r.cmd.toNat % 256 = k →
      r.cmd = BitVec.ofNat 32 k := fun k hk h0 h1 => by
    apply BitVec.eq_of_toNat_eq
    simp only [BitVec.toNat_ofNat]
    omega
  simp only [decode, decodeCmd, ne_eq, rsvdField_zero_iff, opcodeField_iff] at h
  split at h
  · rename_i op hop
    cases h
    split at hop
    · cases hop
    rename_i h0
    have h0 : r.cmd.toNat / 256 = 0 := not_not.mp h0
    repeat' split at hop
    all_goals cases hop
    · exact .inl ⟨word 1 (by omega) h0 ‹_›, rfl⟩
    · exact .inr (.inl ⟨word 2 (by omega) h0 ‹_›, rfl⟩)
    · exact .inr (.inr (.inl ⟨word 3 (by omega) h0 ‹_›, rfl⟩))
    · exact .inr (.inr (.inr ⟨word 4 (by omega) h0 ‹_›, rfl⟩))
  · cases h

end Sys2Proof
end

