-- ==== Sys2Proof/Laws/State.lean ====
section
/-! SUPPORT. One lemma per field per update of the state, each true by unfolding, so that no proof
unfolds a record update. -/

namespace Sys2Proof.Machine

@[simp] theorem setEngine_eng (e : Engine) (s : State) : (setEngine e s).block.eng = e := rfl
@[simp] theorem setEngine_seeded (e : Engine) (s : State) :
    (setEngine e s).block.seeded = s.block.seeded := rfl
@[simp] theorem setEngine_pending (e : Engine) (s : State) : (setEngine e s).pending = s.pending := rfl
@[simp] theorem setEngine_answered (e : Engine) (s : State) : (setEngine e s).answered = s.answered := rfl

@[simp] theorem markSeeded_eng (s : State) : (markSeeded s).block.eng = s.block.eng := rfl
@[simp] theorem markSeeded_seeded (s : State) : (markSeeded s).block.seeded = true := rfl
@[simp] theorem markSeeded_pending (s : State) : (markSeeded s).pending = s.pending := rfl
@[simp] theorem markSeeded_answered (s : State) : (markSeeded s).answered = s.answered := rfl

@[simp] theorem takeEvent_block (rest : List PortEvent) (s : State) :
    (takeEvent rest s).block = s.block := rfl
@[simp] theorem takeEvent_pending (rest : List PortEvent) (s : State) :
    (takeEvent rest s).pending = rest := rfl
@[simp] theorem takeEvent_answered (rest : List PortEvent) (s : State) :
    (takeEvent rest s).answered = s.answered := rfl

@[simp] theorem resetBlock_seeded (c : StateArray) : (resetBlock c).seeded = false := rfl
@[simp] theorem resetBlock_cursor (c : StateArray) : (resetBlock c).eng.cursor = 624 := rfl
@[simp] theorem resetBlock_mt (c : StateArray) : (resetBlock c).eng.mt = c := rfl

theorem isSeeded_eq (s : State) : isSeeded s = s.block.seeded := rfl

end Sys2Proof.Machine
end

