-- ==== Sys2Proof/Laws/Ops.lean ====
section
/-! SUPPORT. What each shared operation can do, said once: the laws of state reads and writes, and the
one answer of each port operation. -/

namespace Sys2Proof.Machine

/-- An index formed below 624 is that index. -/
theorem wordIndex_val {k : Nat} (h : k < 624) : (wordIndex k).val = k := Nat.mod_eq_of_lt h

theorem wordIndex_zero : wordIndex 0 = 0 := rfl

theorem wordIndex_of_fin (i : Fin 624) : wordIndex i.val = i := Fin.ext (wordIndex_val i.isLt)

/-- A read after a write to the same word gives what was written (R26). -/
theorem stateRead_write_same (mt : StateArray) (i : Fin 624) (v : Word) :
    stateRead (stateWrite mt i v) i = v := by
  simp [stateRead, stateWrite]

/-- A write leaves every other word alone (R30). -/
theorem stateRead_write_other (mt : StateArray) (i j : Fin 624) (v : Word) (h : i ≠ j) :
    stateRead (stateWrite mt i v) j = stateRead mt j := by
  have hv : i.val ≠ j.val := fun e => h (Fin.ext e)
  simp [stateRead, stateWrite, hv]

/-- Two arrays whose words agree are equal. -/
theorem stateArray_ext {a b : StateArray} (h : ∀ i, stateRead a i = stateRead b i) : a = b :=
  Vector.ext fun i hi => h ⟨i, hi⟩

/-- The one answer of `respond`. -/
theorem respond_next {st : Status} {w : Word} {s t : State} (h : respond st w s = .next t) :
    t.block = s.block ∧ t.pending = s.pending ∧ t.answered = s.answered ++ [⟨st, w⟩] := by
  cases h
  exact ⟨rfl, rfl, rfl⟩

/-- The one answer of `raiseError`. -/
theorem raiseError_next {e : CmdError} {s t : State} (h : raiseError e s = .next t) :
    t.block = s.block ∧ t.pending = s.pending ∧ t.answered = s.answered ++ [⟨errorStatus e, 0#32⟩] :=
  respond_next h

/-- An illegal request is answered alike whichever field makes it illegal. -/
theorem rejectRequest_eq (e : DecodeError) (s : State) :
    rejectRequest e s = raiseError .illegalCmd s := by
  cases e <;> rfl

/-- The one answer of `takeReset`. -/
theorem takeReset_next {c : StateArray} {s t : State} (h : takeReset c s = .next t) :
    t.block = resetBlock c ∧ t.pending = s.pending ∧ t.answered = s.answered := by
  cases h
  exact ⟨rfl, rfl, rfl⟩

/-- A reset during a command leaves what a reset between commands leaves (R85). -/
theorem abandonRequest_eq (c : StateArray) (s : State) : abandonRequest c s = takeReset c s := rfl

end Sys2Proof.Machine
end

