-- ==== Sys2Proof/Laws/Engine.lean ====
section
/-! SUPPORT. What the engine's functions compute, word by word, and the two cases of a draw. -/

namespace Sys2Proof.Machine

/-- The first word of a seeding run is the word it starts from. -/
theorem seedingFrom_getElem_zero (n i : Nat) (p : Word) (h : 0 < (seedingFrom n i p).length) :
    (seedingFrom n i p)[0] = p := by
  cases n with
  | zero => simp [seedingFrom] at h
  | succ n => rfl

/-- Each later word of a seeding run is `SeedStep` of the word before it. -/
theorem seedingFrom_getElem_succ (n i k : Nat) (p : Word) (h : k + 1 < (seedingFrom n i p).length) :
    (seedingFrom n i p)[k + 1] =
      seedStep ((seedingFrom n i p)[k]'(Nat.lt_of_succ_lt h)) (i + k + 1) := by
  induction k generalizing n i p with
  | zero =>
    cases n with
    | zero => simp [seedingFrom] at h
    | succ n => simp [seedingFrom, seedingFrom_getElem_zero]
  | succ k ih =>
    cases n with
    | zero => simp [seedingFrom] at h
    | succ n =>
      have h' : k + 1 < (seedingFrom n (i + 1) (seedStep p (i + 1))).length := by
        simpa [seedingFrom] using h
      have := ih n (i + 1) (seedStep p (i + 1)) h'
      simpa [seedingFrom, Nat.add_assoc, Nat.add_comm, Nat.add_left_comm] using this

theorem initArray_zero (seed : Word) : stateRead (initArray seed) 0 = seed := by
  simp [stateRead, initArray, seedingFrom_getElem_zero]

theorem initArray_succ (seed : Word) (k : Nat) (h : k + 1 < 624) :
    stateRead (initArray seed) ⟨k + 1, h⟩ =
      seedStep (stateRead (initArray seed) ⟨k, Nat.lt_of_succ_lt h⟩) (k + 1) := by
  have h' : k + 1 < (seedingFrom 624 0 seed).length := by simpa [seedingFrom_length] using h
  have := seedingFrom_getElem_succ 624 0 k seed h'
  simpa [stateRead, initArray] using this

/-- Iteration `n` of a twist writes word `n` and no other. -/
theorem twistAt_other (mt : StateArray) (n : Nat) (j : Fin 624) (h : wordIndex n ≠ j) :
    stateRead (twistAt mt n) j = stateRead mt j :=
  stateRead_write_other _ _ _ _ h

theorem twistAt_same (mt : StateArray) (n : Nat) :
    stateRead (twistAt mt n) (wordIndex n) =
      twistStep (stateRead mt (wordIndex n)) (stateRead mt (wordIndex (n + 1)))
        (stateRead mt (wordIndex (n + twistOffset))) :=
  stateRead_write_same _ _ _

/-- The first `n` iterations leave the words from `n` on as they were. -/
theorem twistUpTo_later (mt : StateArray) (n : Nat) (hn : n ≤ 624) (j : Fin 624) (h : n ≤ j.val) :
    stateRead (twistUpTo mt n) j = stateRead mt j := by
  induction n with
  | zero => rfl
  | succ n ih =>
    have hne : wordIndex n ≠ j := fun e => by
      have := congrArg Fin.val e
      rw [wordIndex_val (by omega)] at this
      omega
    show stateRead (twistAt (twistUpTo mt n) n) j = _
    rw [twistAt_other _ _ _ hne, ih (by omega) (by omega)]

/-- A word, once rewritten, stays so for the rest of the twist. -/
theorem twistUpTo_settled (mt : StateArray) (n m : Nat) (hnm : n ≤ m) (hm : m ≤ 624) (j : Fin 624)
    (h : j.val < n) : stateRead (twistUpTo mt m) j = stateRead (twistUpTo mt n) j := by
  induction m, hnm using Nat.le_induction with
  | base => rfl
  | succ m hnm ih =>
    have hne : wordIndex m ≠ j := fun e => by
      have := congrArg Fin.val e
      rw [wordIndex_val (by omega)] at this
      omega
    show stateRead (twistAt (twistUpTo mt m) m) j = _
    rw [twistAt_other _ _ _ hne, ih (by omega)]

/-- Word `i` of the twisted array is what iteration `i` computed from the array as it then stood. -/
theorem twist_word (mt : StateArray) (i : Nat) (h : i < 624) :
    stateRead (twist mt) (wordIndex i) =
      twistStep (stateRead (twistUpTo mt i) (wordIndex i))
        (stateRead (twistUpTo mt i) (wordIndex (i + 1)))
        (stateRead (twistUpTo mt i) (wordIndex (i + twistOffset))) := by
  rw [← twistAt_same]
  exact twistUpTo_settled mt (i + 1) 624 (by omega) (by omega) _ (by rw [wordIndex_val h]; omega)

theorem emitWord_word (mt : StateArray) (i : Fin 624) :
    (emitWord mt i).1 = temper (stateRead mt i) := rfl
theorem emitWord_mt (mt : StateArray) (i : Fin 624) : (emitWord mt i).2.mt = mt := rfl
theorem emitWord_cursor (mt : StateArray) (i : Fin 624) :
    (emitWord mt i).2.cursor.val = i.val + 1 := rfl

/-- A draw at cursor 624 twists first. -/
theorem draw_full (e : Engine) (h : e.cursor.val = 624) : draw e = emitWord (twist e.mt) 0 := by
  simp [draw, h]

/-- A draw below cursor 624 emits the word at the cursor. -/
theorem draw_within (e : Engine) (h : e.cursor.val < 624) :
    draw e = emitWord e.mt ⟨e.cursor.val, h⟩ := by
  have : e.cursor.val ≠ 624 := by omega
  simp [draw, this]

/-- Every draw is one of the two. -/
theorem draw_cases (e : Engine) :
    (e.cursor.val = 624 ∧ draw e = emitWord (twist e.mt) 0) ∨
      ∃ h : e.cursor.val < 624, draw e = emitWord e.mt ⟨e.cursor.val, h⟩ := by
  by_cases h : e.cursor.val = 624
  · exact .inl ⟨h, draw_full e h⟩
  · have hlt : e.cursor.val < 624 := by have := e.cursor.isLt; omega
    exact .inr ⟨hlt, draw_within e hlt⟩

end Sys2Proof.Machine
end

