-- ==== Sys2Proof/Laws/PerInstr.lean ====
section
/-! SUPPORT. The statements made for each constructor of `Instr`. -/

namespace Sys2Proof.Laws.RoundTrip

/-- Decoding the encoding of a well-formed command gives the command back, and the encoding is a legal
request (R41, R42, R45). -/
def Statement (i : Instr) : Prop :=
  i.wellFormed = true → decode (encode i) = .ok i ∧ (encode i).legal = true

theorem seed (s : Word) : Statement (.seed s) := fun _ =>
  ⟨by simp [decode, encode, decodeCmd_seed, operate], by simp [encode, Request.legal]⟩
theorem next : Statement .next := fun _ =>
  ⟨by simp [decode, encode, decodeCmd_next, operate], by simp [encode, Request.legal]⟩
theorem cellseed (x z : Word) : Statement (.cellseed x z) := fun _ =>
  ⟨by simp [decode, encode, decodeCmd_cellseed, operate], by simp [encode, Request.legal]⟩
theorem isspecial (x z : Word) : Statement (.isspecial x z) := fun _ =>
  ⟨by simp [decode, encode, decodeCmd_isspecial, operate], by simp [encode, Request.legal]⟩

end Sys2Proof.Laws.RoundTrip
end

