-- ==== Sys2Proof/Laws/Step.lean ====
section
/-! SUPPORT. What a command and a step can do, said once: the inversion of `exec` and of `step`. -/

namespace Sys2Proof.Machine

/-- NEXT on a seeded block, in terms of `draw`. -/
theorem exec_next_draws {s : State} (h : s.block.seeded = true) :
    exec .next s = .next { s with
      block := ⟨(draw s.block.eng).2, true⟩
      answered := s.answered ++ [⟨.ok, (draw s.block.eng).1⟩] } := by
  simp only [exec, execNext, isSeeded_eq, h, if_true, respond, setEngine]

/-- NEXT on a seeded block at cursor 624, in terms of `twist`. -/
theorem exec_next_full {s : State} (h : s.block.seeded = true) (hc : s.block.eng.cursor.val = 624) :
    exec .next s = .next { s with
      block := ⟨⟨twist s.block.eng.mt, 1⟩, true⟩
      answered := s.answered ++ [⟨.ok, temper (stateRead (twist s.block.eng.mt) 0)⟩] } := by
  rw [exec_next_draws h, draw_full _ hc]
  simp only [emitWord]
  rfl

/-- What a command that answers a next state did to the block, and what it answered. -/
theorem exec_cases {i : Instr} {s t : State} (h : exec i s = .next t) :
    t.pending = s.pending ∧
    ((∃ seed, i = .seed seed ∧ t.block = ⟨newEngine seed, true⟩ ∧
        t.answered = s.answered ++ [⟨.ok, 0#32⟩]) ∨
     (i = .next ∧ s.block.seeded = true ∧ t.block = ⟨(draw s.block.eng).2, true⟩ ∧
        t.answered = s.answered ++ [⟨.ok, (draw s.block.eng).1⟩]) ∨
     (i = .next ∧ s.block.seeded = false ∧ t.block = s.block ∧
        t.answered = s.answered ++ [⟨.unseeded, 0#32⟩]) ∨
     ((∃ x z, i = .cellseed x z ∧ t.answered = s.answered ++ [⟨.ok, derivedSeed x z⟩]) ∧
        t.block = s.block) ∨
     ((∃ x z, i = .isspecial x z ∧
        t.answered = s.answered ++ [⟨.ok, boolWord (seedIsSpecial (derivedSeed x z))⟩]) ∧
        t.block = s.block)) := by
  cases i with
  | seed seed => cases h; exact ⟨rfl, .inl ⟨seed, rfl, rfl, rfl⟩⟩
  | next =>
    cases hb : s.block.seeded with
    | true =>
      simp only [exec, execNext, isSeeded_eq, hb, if_true] at h
      cases h
      refine ⟨rfl, .inr (.inl ⟨rfl, rfl, ?_, rfl⟩)⟩
      simp [setEngine, hb]
    | false =>
      simp only [exec, execNext, isSeeded_eq, hb] at h
      cases h
      exact ⟨rfl, .inr (.inr (.inl ⟨rfl, rfl, rfl, rfl⟩))⟩
  | cellseed x z => cases h; exact ⟨rfl, .inr (.inr (.inr (.inl ⟨⟨x, z, rfl, rfl⟩, rfl⟩)))⟩
  | isspecial x z => cases h; exact ⟨rfl, .inr (.inr (.inr (.inr ⟨⟨x, z, rfl, rfl⟩, rfl⟩)))⟩

/-- What a step that answers a next state was: idle, a decoded command, an illegal request, or a
reset. -/
theorem step_cases {s t : State} (h : step s = .next t) :
    (s.pending = [] ∧ t = s) ∨
    (∃ r rest i, s.pending = .request r :: rest ∧ decode r = .ok i ∧
        exec i (takeEvent rest s) = .next t) ∨
    (∃ r rest e, s.pending = .request r :: rest ∧ decode r = .error e ∧
        raiseError .illegalCmd (takeEvent rest s) = .next t) ∨
    (∃ ev rest c, s.pending = ev :: rest ∧ (ev = .reset c ∨ ∃ r, ev = .abandoned r c) ∧
        takeReset c (takeEvent rest s) = .next t) := by
  unfold step at h
  match hp : s.pending with
  | [] =>
    simp only [hp] at h
    cases h
    exact .inl ⟨rfl, rfl⟩
  | .request r :: rest =>
    simp only [hp] at h
    cases hd : decode r with
    | ok i =>
      simp only [hd] at h
      exact .inr (.inl ⟨r, rest, i, rfl, hd, h⟩)
    | error e =>
      simp only [hd, rejectRequest_eq] at h
      exact .inr (.inr (.inl ⟨r, rest, e, rfl, hd, h⟩))
  | .reset c :: rest =>
    simp only [hp] at h
    exact .inr (.inr (.inr ⟨_, rest, c, rfl, .inl rfl, h⟩))
  | .abandoned r c :: rest =>
    simp only [hp] at h
    exact .inr (.inr (.inr ⟨_, rest, c, rfl, .inr ⟨r, rfl⟩, h⟩))

end Sys2Proof.Machine
end

