-- ==== Sys2Proof/Tests/Slice0.lean ====
section
/-! SUPPORT. Tests of single steps and single functions, every expected value taken from
spec/95_test_vectors.md or from the rule named; the smoke tests of the well-formedness checks; and, for
each obligation with hypotheses, a witness that meets them. -/

namespace Sys2Proof.Tests

open Sys2Proof.Machine

set_option maxRecDepth 100000

/-! ### Small states -/

/-- A block seeded with `seed` from which nothing has been drawn (R56). -/
def seededBlock (seed : Word) : Block := ⟨newEngine seed, true⟩

/-- A seeded block at cursor `c` whose array holds 1 in every word. -/
def onesBlock (c : Fin 625) : Block := ⟨⟨Vector.replicate 624 1#32, c⟩, true⟩

/-- An unseeded block as reset leaves it, its array holding 1 in every word. -/
def unseededBlock : Block := ⟨⟨Vector.replicate 624 1#32, 624⟩, false⟩

/-- A block with the given events at its port and nothing answered yet. -/
def atPort (b : Block) (evs : List PortEvent) : State := ⟨b, evs, []⟩

/-- The response that a step or a command added last. -/
def lastAnswer (r : Result) : Option Response :=
  match r with
  | .next t => t.answered.getLast?
  | .fault _ => none
  | .refused _ => none

/-- The block a step or a command leaves. -/
def blockAfter (r : Result) : Option Block :=
  match r with
  | .next t => some t.block
  | .fault _ => none
  | .refused _ => none

/-! ### The well-formedness checks refuse what they should -/

/-- R43: opcode 0x00, opcode 0x05, opcode 0xFF, reserved bit 8, all ones. -/
theorem test_illegal_requests_refused :
    Request.legal ⟨0x00000000#32, 0#32, 0#32⟩ = false ∧ Request.legal ⟨0x00000005#32, 0#32, 0#32⟩ = false ∧
    Request.legal ⟨0x000000FF#32, 0#32, 0#32⟩ = false ∧ Request.legal ⟨0x00000102#32, 0#32, 0#32⟩ = false ∧
    Request.legal ⟨0xFFFFFFFF#32, 0#32, 0#32⟩ = false ∧ Request.legal ⟨0x00000004#32, 7#32, 8#32⟩ = true := by
  decide

/-- R45: a `<u32>` literal one above or one below its range. -/
theorem test_u32_literals_out_of_range_refused :
    Literal.inU32 (.dec 4294967296) = false ∧ Literal.inU32 (.dec (-2147483649)) = false ∧
    Literal.inU32 (.hex 0x100000000) = false ∧ Literal.inU32 (.dec 4294967295) = true := by decide

/-- R45: an `<i32>` literal one above or one below its range. -/
theorem test_i32_literals_out_of_range_refused :
    Literal.inI32 (.dec 2147483648) = false ∧ Literal.inI32 (.dec (-2147483649)) = false ∧
    Literal.inI32 (.hex 0x100000000) = false ∧ Literal.inI32 (.dec (-2147483648)) = true := by decide

/-- R45: a line with one operand out of range, at each command that has operands. -/
theorem test_lines_out_of_range_refused :
    Line.wellFormed (.seed (.dec 4294967296)) = false ∧
    Line.wellFormed (.cellseed (.dec 0) (.dec 2147483648)) = false ∧
    Line.wellFormed (.isspecial (.dec 2147483648) (.dec 0)) = false ∧
    Line.wellFormed (.seedcell (.dec 0) (.hex 0x100000000)) = false ∧
    Line.wellFormed .next = true := by decide

/-! ### Decoding, words written out from R41 (and V11) -/

theorem test_decode_seed : decode ⟨0x00000001#32, 0x00001571#32, 0xDEADBEEF#32⟩ = .ok (.seed 5489#32) := by
  decide
theorem test_decode_next : decode ⟨0x00000002#32, 0x12345678#32, 0x9ABCDEF0#32⟩ = .ok .next := by decide
theorem test_decode_cellseed :
    decode ⟨0x00000003#32, 0x7FFFFFFF#32, 0x80000000#32⟩ =
      .ok (.cellseed 0x7FFFFFFF#32 0x80000000#32) := by decide
theorem test_decode_isspecial :
    decode ⟨0x00000004#32, 0xFFFFFFFD#32, 0xFFFFFFFE#32⟩ =
      .ok (.isspecial 0xFFFFFFFD#32 0xFFFFFFFE#32) := by decide

/-- R43: a reserved bit makes the word illegal although the opcode field reads 0x02. -/
theorem test_decode_reserved_bit : decode ⟨0x00000102#32, 0#32, 0#32⟩ = .error .reservedBits := by decide

/-- R43: the first opcode after the assigned ones. -/
theorem test_decode_unassigned : decode ⟨0x00000005#32, 0#32, 0#32⟩ = .error .unassignedOpcode := by decide

/-- The four rows of spec/opcode_table.json, and a SEED whose operand word is given too. -/
theorem test_decode_table_words :
    decodeTableWord 32 1 = some (.seed 0#32) ∧ decodeTableWord 32 2 = some .next ∧
    decodeTableWord 32 3 = some (.cellseed 0#32 0#32) ∧ decodeTableWord 32 4 = some (.isspecial 0#32 0#32) ∧
    decodeTableWord 96 (1 + 5489 * 2 ^ 32) = some (.seed 5489#32) ∧ decodeTableWord 32 5 = none := by decide

/-! ### The engine -/

/-- R50's example. -/
theorem test_seedStep_example : seedStep 5489#32 1 = 1301868182#32 := by decide

/-- V5: the last word of `Init(5489)`. -/
theorem test_init_last_word : stateRead (initArray 5489#32) 623 = 79981964#32 := by decide +kernel

/-- V7: the row where both halves of x count, and the row whose x is even because only a's low bits and
b's top bit are set. -/
theorem test_twistStep_rows :
    twistStep 0x80000000#32 1#32 0#32 = 0xD908B0DF#32 ∧
    twistStep 0x7FFFFFFF#32 0x80000000#32 0x12345678#32 = 0x12345678#32 := by decide

/-- V6: two rows of the tempering table. -/
theorem test_temper_rows :
    temper 0x12345678#32 = 0x2B7E4A2D#32 ∧ temper 0x5555AAAA#32 = 0x5B191059#32 := by decide

/-- V7b: w_228 of seed 5489, the first word that shows a wrong read order (a two-array twist gives
1555238303). -/
theorem test_twist_read_order :
    temper (stateRead (twist (initArray 5489#32)) 227) = 2397746050#32 := by decide +kernel

/-- P1 step 2: SEED 5489 from reset answers OK, 0. -/
theorem test_seed_answers : lastAnswer (exec (.seed 5489#32) State.reset) = some ⟨.ok, 0#32⟩ := by decide

/-- P1 step 2: SEED sets SEEDED and the cursor 624 on a block that was in the middle of a stream. -/
theorem test_seed_restarts :
    ((blockAfter (exec (.seed 5489#32) (atPort (onesBlock 3) []))).map
      fun b => (b.seeded, b.eng.cursor.val, stateRead b.eng.mt 1)) =
        some (true, 624, 1301868182#32) := by decide +kernel

/-- V1: the first NEXT after SEED 5489. -/
theorem test_next_first_word :
    lastAnswer (exec .next (atPort (seededBlock 5489#32) [])) = some ⟨.ok, 3499211612#32⟩ := by
  decide +kernel

/-- R57: NEXT at cursor 623 leaves cursor 624 and runs no twist; the word is Temper(1) of V6. -/
theorem test_next_last_word :
    lastAnswer (exec .next (atPort (onesBlock 623) [])) = some ⟨.ok, 0x00400091#32⟩ ∧
    ((blockAfter (exec .next (atPort (onesBlock 623) []))).map fun b => b.eng.cursor.val) = some 624 := by
  decide +kernel

/-! ### The cell commands -/

/-- V8: two rows of the mul32 table. -/
theorem test_mul32_rows :
    mul32 3#32 0x1F1F1F1F#32 = 0x5D5D5D5D#32 ∧ mul32 0x6C078965#32 0x6C078965#32 = 0x054341D9#32 := by
  decide

/-- V9: four rows, two of them with negative coordinates. -/
theorem test_cellSeed_rows :
    cellSeed (-5) 7 = 0x64646462#32 ∧ cellSeed 10 (-10) = 0xC8C8C8C0#32 ∧
    cellSeed 100 200 = 0x282828D4#32 ∧ cellSeed 4294967297 5 = 0x1F1F1F1A#32 := by decide

/-- V11: CELLSEED 1, 0 from reset. -/
theorem test_cellseed_answers :
    lastAnswer (exec (.cellseed 1#32 0#32) State.reset) = some ⟨.ok, 0x1F1F1F1F#32⟩ := by decide

/-- V11: ISSPECIAL -1, 0 from reset answers 1. -/
theorem test_isspecial_special :
    lastAnswer (exec (.isspecial 0xFFFFFFFF#32 0#32) State.reset) = some ⟨.ok, 1#32⟩ := by decide +kernel

/-- V4: ISSPECIAL 0, 0 answers 0. -/
theorem test_isspecial_not_special :
    lastAnswer (exec (.isspecial 0#32 0#32) State.reset) = some ⟨.ok, 0#32⟩ := by decide +kernel

/-! ### The port -/

/-- P1 step 1: NEXT right after reset. -/
theorem test_next_unseeded :
    lastAnswer (step (State.reset.withFetchWord 32 2)) = some ⟨.unseeded, 0#32⟩ := by decide

/-- V11: a reserved bit is reported before UNSEEDED (R73). -/
theorem test_illegal_before_unseeded :
    lastAnswer (step (State.reset.withFetchWord 32 0x102)) = some ⟨.illegalCmd, 0#32⟩ := by decide

/-- R84: reset clears SEEDED and sets the cursor, and there is no response. -/
theorem test_reset_event :
    ((blockAfter (step (atPort (onesBlock 3) [.reset (Vector.replicate 624 7#32)]))).map
      fun b => (b.seeded, b.eng.cursor.val)) = some (false, 624) ∧
    lastAnswer (step (atPort (onesBlock 3) [.reset (Vector.replicate 624 7#32)])) = none := by decide

/-- R85: a NEXT abandoned by reset gives no response. -/
theorem test_abandoned_next :
    lastAnswer (step (atPort (onesBlock 3) [.abandoned (encode .next) (Vector.replicate 624 7#32)])) =
      none := by decide

/-- P2 steps 5 and 6: SEEDCELL -1, 0 answers the derived seed and then OK, 0. -/
theorem test_seedcell_answers :
    ((runScript (expandSeedcell 0xFFFFFFFF#32 0#32) State.reset).map fun t => t.answered) =
      some [⟨.ok, 3772834017#32⟩, ⟨.ok, 0#32⟩] := by decide

/-! ### The listing syntax -/

/-- R45: the line of R45's own example, with a comment after it. -/
theorem test_read_seed_line :
    readLine "SEED      5489 ; known vector".toList = .ok ⟨some (.seed (.dec 5489)), none⟩ := by
  decide +kernel

/-- R45: a negative decimal literal and a hexadecimal one. -/
theorem test_read_isspecial_line :
    readLine "ISSPECIAL -1, 0xFFFFFFFE".toList =
      .ok ⟨some (.isspecial (.dec (-1)) (.hex 0xFFFFFFFE)), none⟩ := by decide +kernel

/-- R45: a response after `->`. -/
theorem test_read_response :
    readLine "NEXT -> OK, 3499211612".toList = .ok ⟨some .next, some ⟨.ok, 3499211612#32⟩⟩ := by
  decide +kernel

/-- R45: a literal out of range, a lower-case mnemonic, a missing operand. -/
theorem test_read_refuses :
    readLine "SEED 4294967296".toList = .error .outOfRange ∧
    readLine "seed 1".toList = .error .unknownMnemonic ∧
    readLine "CELLSEED 1".toList = .error .badOperands ∧
    readLine "; only a comment".toList = .ok ⟨none, none⟩ := by decide +kernel

/-- R46: the pseudo-commands. -/
theorem test_read_pseudo_commands :
    readLine "SKIP 623".toList = .ok ⟨some (.skip 623), none⟩ ∧
    readLine "SEEDCELL -1, 0".toList = .ok ⟨some (.seedcell (.dec (-1)) (.dec 0)), none⟩ := by
  decide +kernel

/-- R45: the encoded form of `SEED 5489`, and a response as text. -/
theorem test_written_forms :
    requestText (encode (.seed 5489#32)) = "00000001 00001571 00000000".toList ∧
    responseText ⟨.ok, 3499211612#32⟩ = "OK, 3499211612".toList := by decide +kernel

/-- R47: the encoded operand words. -/
theorem test_operand_words :
    cellOperand (-1) = 0xFFFFFFFF#32 ∧ cellOperand (-2147483648) = 0x80000000#32 ∧
    cellOperand 2147483647 = 0x7FFFFFFF#32 ∧ seedOperand 5489 = 0x00001571#32 := by decide

/-! ### Witnesses: for each obligation with hypotheses, values that meet them -/

/-- Each clause of DecodingFollowsTheCmdWord, at the boundary values of its fields. -/
theorem witness_DecodingFollowsTheCmdWord :
    (0x00000100#32 : Word).toNat / 256 ≠ 0 ∧ (0xFFFFFFFF#32 : Word).toNat / 256 ≠ 0 ∧
    ((1#32 : Word).toNat / 256 = 0 ∧ (1#32 : Word).toNat % 256 = 1) ∧
    ((2#32 : Word).toNat / 256 = 0 ∧ (2#32 : Word).toNat % 256 = 2) ∧
    ((3#32 : Word).toNat / 256 = 0 ∧ (3#32 : Word).toNat % 256 = 3) ∧
    ((4#32 : Word).toNat / 256 = 0 ∧ (4#32 : Word).toNat % 256 = 4) ∧
    ((0#32 : Word).toNat / 256 = 0 ∧ (0#32 : Word).toNat % 256 = 0) ∧
    ((255#32 : Word).toNat / 256 = 0 ∧ (255#32 : Word).toNat % 256 = 255) := by decide

theorem witness_RequestsRoundTripBitForBit : (Instr.isspecial 0xFFFFFFFF#32 0#32).wellFormed = true := rfl

theorem witness_HostIntegersArePresentedModulo :
    (-2147483648 : Int) ≤ -2147483648 ∧ (-2147483648 : Int) ≤ 2147483647 ∧
    (2147483647 : Int) ≤ 2147483647 ∧ asI32 (trunc32 (-2147483648)) = -2147483648 := by decide

/-- The clauses of AssemblerRefusesOutOfRange: an ill-formed line, a hexadecimal literal at the top of its
range, seeds at both ends, and coordinates of both forms, mixed (the patterns are R47's). -/
theorem witness_AssemblerRefusesOutOfRange :
    Line.wellFormed (.seedcell (.dec 2147483648) (.hex 0)) = false ∧ 4294967295 ≤ 0xFFFFFFFF ∧
    Literal.inU32 (.dec 4294967295) = true ∧ Literal.inU32 (.hex 4294967295) = true ∧
    Literal.inI32 (.dec (-2147483648)) = true ∧ Literal.inI32 (.hex 0xFFFFFFFF) = true ∧
    literalWord (.hex 0xFFFFFFFF) = 0xFFFFFFFF#32 ∧ literalWord (.dec (-2147483648)) = 0x80000000#32 := by
  decide

/-- R45, R46: a hexadecimal coordinate beside a decimal one, and the two pseudo-commands. -/
theorem test_assemble_lines :
    assemble (.cellseed (.hex 0xFFFFFFFF) (.dec 0)) = .ok [.issue (.cellseed 0xFFFFFFFF#32 0#32)] ∧
    assemble (.seedcell (.dec (-1)) (.hex 0x7FFFFFFF)) =
      .ok [.issue (.cellseed 0xFFFFFFFF#32 0x7FFFFFFF#32), .seedResult] ∧
    assemble (.skip 2) = .ok [.issue .next, .issue .next] ∧
    assemble (.isspecial (.hex 0x100000000) (.dec 0)) = .error .outOfRange := by decide

theorem witness_StepRunsTheDecodedCommand :
    (atPort (onesBlock 0) [.request ⟨2#32, 9#32, 9#32⟩]).pending = .request ⟨2#32, 9#32, 9#32⟩ :: [] ∧
    decode ⟨2#32, 9#32, 9#32⟩ = .ok .next := by decide

/-- The four clauses of EveryStepCompletes. -/
theorem witness_EveryStepCompletes :
    (atPort unseededBlock [.request (encode .next)]).pending = .request (encode .next) :: [] ∧
    (atPort unseededBlock [.reset (Vector.replicate 624 7#32)]).pending =
      .reset (Vector.replicate 624 7#32) :: [] ∧
    (atPort unseededBlock [.abandoned (encode .next) (Vector.replicate 624 7#32)]).pending =
      .abandoned (encode .next) (Vector.replicate 624 7#32) :: [] ∧
    (atPort unseededBlock []).pending = [] := ⟨rfl, rfl, rfl, rfl⟩

theorem witness_ResponsesComeInAcceptanceOrder :
    (atPort unseededBlock [.request (encode (.seed 1#32)), .request (encode .next)]).pending =
      [encode (.seed 1#32), encode .next].map .request ∧
    2 ≤ [encode (.seed 1#32), encode .next].length := ⟨rfl, by decide⟩

/-- The three ways a CMD word is illegal, at the boundaries. -/
theorem witness_IllegalCommandsAreAnswered :
    (atPort unseededBlock [.request ⟨0#32, 1#32, 2#32⟩]).pending = .request ⟨0#32, 1#32, 2#32⟩ :: [] ∧
    IllegalCmd 0#32 ∧ IllegalCmd 5#32 ∧ IllegalCmd 255#32 ∧ IllegalCmd 0x102#32 ∧ IllegalCmd 0xFFFFFFFF#32 ∧
    ¬ IllegalCmd 1#32 ∧ ¬ IllegalCmd 4#32 := ⟨rfl, by decide⟩

theorem witness_OnlyNextReportsUnseeded :
    unseededBlock.seeded = false ∧ ∃ t, exec .next (atPort unseededBlock []) = .next t ∧
      t.answered = (atPort unseededBlock []).answered ++ [⟨.unseeded, 0#32⟩] := ⟨rfl, _, rfl, rfl⟩

theorem witness_DecodingErrorsComeFirst :
    (atPort unseededBlock [.request ⟨0x102#32, 0#32, 0#32⟩]).pending =
      .request ⟨0x102#32, 0#32, 0#32⟩ :: [] := rfl

theorem witness_ErrorsChangeNothing :
    ∃ t, step (atPort unseededBlock [.request (encode .next)]) = .next t ∧
      t.answered = (atPort unseededBlock [.request (encode .next)]).answered ++ [⟨.unseeded, 0#32⟩] ∧
      Status.unseeded ≠ .ok := ⟨_, rfl, rfl, by decide⟩

/-- An OK answer of each command, and a step whose answer is not OK. -/
theorem witness_ResultWordsByCommand :
    (∃ t w, exec (.seed 1#32) (atPort unseededBlock []) = .next t ∧ t.answered = [⟨.ok, w⟩]) ∧
    (∃ t w, exec .next (atPort (onesBlock 0) []) = .next t ∧ t.answered = [⟨.ok, w⟩]) ∧
    (∃ t w, exec (.cellseed 1#32 2#32) (atPort unseededBlock []) = .next t ∧ t.answered = [⟨.ok, w⟩]) ∧
    (∃ t w, exec (.isspecial 1#32 2#32) (atPort unseededBlock []) = .next t ∧ t.answered = [⟨.ok, w⟩]) ∧
    (∃ t w, step (atPort unseededBlock [.request (encode .next)]) = .next t ∧
      t.answered = [⟨.unseeded, w⟩]) :=
  ⟨⟨_, _, rfl, rfl⟩, ⟨_, _, rfl, rfl⟩, ⟨_, _, rfl, rfl⟩, ⟨_, _, rfl, rfl⟩, ⟨_, _, rfl, rfl⟩⟩

/-- Both clauses of ResetPutsTheBlockBack; the second with a reset and with an abandoned request. -/
theorem witness_ResetPutsTheBlockBack :
    (∃ t, step (atPort (onesBlock 3) [.reset (Vector.replicate 624 7#32)]) = .next t ∧
      (onesBlock 3).seeded = true ∧ t.block.seeded = false) ∧
    (∃ t, step (atPort (onesBlock 3) [.abandoned (encode .next) (Vector.replicate 624 7#32)]) = .next t ∧
      t.block.seeded = false) := ⟨⟨_, rfl, rfl, rfl⟩, ⟨_, rfl, rfl⟩⟩

theorem witness_AbandonedCommandsLeaveReset :
    (atPort (onesBlock 3) [.abandoned (encode .next) (Vector.replicate 624 7#32)]).pending =
      .abandoned (encode .next) (Vector.replicate 624 7#32) :: [] := rfl

/-- The clauses of OnlySeedSetsSeeded: a reset, a SEED, another command, an unseeded block. -/
theorem witness_OnlySeedSetsSeeded :
    (atPort (onesBlock 3) [.reset (Vector.replicate 624 7#32)]).pending =
      .reset (Vector.replicate 624 7#32) :: [] ∧
    (∃ t, exec (.seed 1#32) (atPort unseededBlock []) = .next t) ∧
    (∃ t, exec (.cellseed 1#32 2#32) (atPort (onesBlock 0) []) = .next t ∧
      ∀ seed, Instr.cellseed 1#32 2#32 ≠ .seed seed) ∧
    unseededBlock.seeded = false ∧ Instr.isspecial 1#32 2#32 ≠ .next :=
  ⟨rfl, ⟨_, rfl⟩, ⟨_, rfl, fun _ h => by cases h⟩, rfl, by decide⟩

/-- The clauses of CursorMovesOnlyAsStated, the drawing one at cursors 0, 623 and 624. -/
theorem witness_CursorMovesOnlyAsStated :
    (∃ t, step (atPort unseededBlock [.request (encode (.seed 1#32))]) = .next t) ∧
    (∃ t, step (atPort (onesBlock 0) [.request (encode .next)]) = .next t ∧ (onesBlock 0).seeded = true) ∧
    (∃ t, step (atPort (onesBlock 623) [.request (encode .next)]) = .next t ∧ t.block.eng.cursor = 624) ∧
    (∃ t, step (atPort (onesBlock 624) [.request (encode .next)]) = .next t) ∧
    (∃ t, step (atPort unseededBlock [.request (encode .next)]) = .next t ∧ unseededBlock.seeded = false) ∧
    (∃ t, step (atPort unseededBlock [.request (encode (.cellseed 1#32 2#32))]) = .next t) ∧
    (∃ t, step (atPort unseededBlock [.request (encode (.isspecial 1#32 2#32))]) = .next t) ∧
    (∃ t, step (atPort unseededBlock [.request ⟨0#32, 0#32, 0#32⟩]) = .next t) ∧
    decode (encode (.seed 1#32)) = .ok (.seed 1#32) ∧ decode (encode .next) = .ok .next ∧
    decode (encode (.cellseed 1#32 2#32)) = .ok (.cellseed 1#32 2#32) ∧
    decode (encode (.isspecial 1#32 2#32)) = .ok (.isspecial 1#32 2#32) ∧
    decode ⟨0#32, 0#32, 0#32⟩ = .error .unassignedOpcode :=
  ⟨⟨_, rfl⟩, ⟨_, rfl, rfl⟩, ⟨_, rfl, rfl⟩, ⟨_, rfl⟩, ⟨_, rfl, rfl⟩, ⟨_, rfl⟩, ⟨_, rfl⟩, ⟨_, rfl⟩, by decide⟩

theorem witness_UnseededCursorStaysFull :
    CursorFullWhileUnseeded (atPort unseededBlock [.request (encode .next)]) ∧
    ∃ t, step (atPort unseededBlock [.request (encode .next)]) = .next t := ⟨fun _ => rfl, _, rfl⟩

theorem witness_EngineStaysOnSomeStream :
    OnSomeStream (atPort (seededBlock 1#32) [.request (encode (.cellseed 1#32 2#32))]) ∧
    ∃ t, step (atPort (seededBlock 1#32) [.request (encode (.cellseed 1#32 2#32))]) = .next t :=
  ⟨fun _ => ⟨1#32, 0, rfl⟩, _, rfl⟩

/-- Two unseeded states with different arrays and cursors, and two equal seeded ones. -/
theorem witness_UnseededEngineStaysHidden :
    SameToHost (atPort unseededBlock []) (atPort ⟨⟨Vector.replicate 624 7#32, 3⟩, false⟩ []) ∧
    unseededBlock ≠ ⟨⟨Vector.replicate 624 7#32, 3⟩, false⟩ ∧
    SameToHost (atPort (onesBlock 3) []) (atPort (onesBlock 3) []) := by
  refine ⟨⟨rfl, rfl, rfl, fun h => by cases h⟩, fun h => ?_, ⟨rfl, rfl, rfl, fun _ => rfl⟩⟩
  exact absurd (congrArg (fun b => b.eng.cursor) h) (by decide)

theorem witness_SeedStepWrapsToAWord : 1 ≤ 1 ∧ 1 ≤ 623 ∧ 623 ≤ 623 ∧ 2 ≤ 2 := by decide

theorem witness_TwistStepSelectsItsBits : 0 < 31 ∧ 30 < 31 := by decide

/-- V6, the row of 0x00000001. -/
theorem witness_TemperIsABijection :
    (0x00000001#32 : Word) = 1#32 ^^^ (1#32 >>> 11) ∧
    (0x00000081#32 : Word) = 1#32 ^^^ ((1#32 <<< 7) &&& 0x9D2C5680#32) ∧
    (0x00400081#32 : Word) = 0x81#32 ^^^ ((0x81#32 <<< 15) &&& 0xEFC60000#32) := by decide

theorem witness_NextEmitsTheWordAtTheCursor :
    (onesBlock 0).seeded = true ∧ (onesBlock 0).eng.cursor.val < 624 ∧
    (onesBlock 623).seeded = true ∧ (onesBlock 623).eng.cursor.val < 624 := by decide

theorem witness_NextTwistsAnExhaustedArray :
    (seededBlock 5489#32).seeded = true ∧ (seededBlock 5489#32).eng.cursor.val = 624 := ⟨rfl, rfl⟩

theorem witness_StreamFollowsTheTwistSchedule : 1 ≤ 1 ∧ 1 ≤ 624 ∧ 1 ≤ 625 := by decide

theorem witness_PseudoCommandsExpand : (onesBlock 0).seeded = true := rfl

/-- The clauses of EngineCommandFrames: a SEED, a NEXT that does not twist, a NEXT that is UNSEEDED. -/
theorem witness_EngineCommandFrames :
    (∃ t, exec (.seed 1#32) (atPort (onesBlock 0) []) = .next t) ∧
    (∃ t, exec .next (atPort (onesBlock 0) []) = .next t ∧ (onesBlock 0).eng.cursor.val ≠ 624) ∧
    (∃ t, exec .next (atPort unseededBlock []) = .next t ∧ unseededBlock.seeded = false) :=
  ⟨⟨_, rfl⟩, ⟨_, rfl, by decide⟩, ⟨_, rfl, rfl⟩⟩

/-- The array of seed 0, for ISSPECIAL 0, 0. -/
theorem witness_IsspecialEvaluatesThePredicate :
    ∃ mt, IsSeeding ((0#32 * 0x1F1F1F1F#32) ^^^ 0#32) mt := by
  refine ⟨initArray 0#32, ?_, fun i h1 h2 => ?_⟩
  · rw [wordIndex_zero, initArray_zero]
    rfl
  · obtain ⟨k, rfl⟩ : ∃ k, i = k + 1 := ⟨i - 1, by omega⟩
    have e1 : wordIndex (k + 1) = ⟨k + 1, by omega⟩ := Fin.ext (wordIndex_val (by omega))
    have e0 : wordIndex (k + 1 - 1) = ⟨k, by omega⟩ := Fin.ext (wordIndex_val (by omega))
    rw [e1, e0, initArray_succ 0#32 k (by omega)]
    rfl

theorem witness_CoordinatesCountModulo :
    trunc32 4294967296 = trunc32 0 ∧ trunc32 (-4294967295) = trunc32 1 := by decide

theorem witness_CellCommandFrames :
    (∃ t, exec (.cellseed 1#32 2#32) (atPort (onesBlock 0) []) = .next t) ∧
    (∃ t, exec (.isspecial 1#32 2#32) (atPort (onesBlock 0) []) = .next t) := ⟨⟨_, rfl⟩, ⟨_, rfl⟩⟩

theorem witness_CellCommandsDoNotDisturbTheStream :
    Instr.cellseed 1#32 2#32 = .cellseed 1#32 2#32 ∧ Instr.isspecial 1#32 2#32 = .isspecial 1#32 2#32 :=
  ⟨rfl, rfl⟩

end Sys2Proof.Tests
end

section
/-! What a step does for each port event, and what each command does, as equations; then what a draw
does to the cursor and the array. -/

namespace Sys2Proof.Machine

theorem step_idle {s : State} (h : s.pending = []) : step s = .next s := by
  simp only [step, h, stayIdle]

theorem step_request_ok {s : State} {r : Request} {rest : List PortEvent} {i : Instr}
    (h : s.pending = .request r :: rest) (hd : decode r = .ok i) :
    step s = exec i (takeEvent rest s) := by
  simp only [step, h, hd]

theorem step_request_error {s : State} {r : Request} {rest : List PortEvent} {e : DecodeError}
    (h : s.pending = .request r :: rest) (hd : decode r = .error e) :
    step s = raiseError .illegalCmd (takeEvent rest s) := by
  simp only [step, h, hd, rejectRequest_eq]

theorem step_reset {s : State} {c : StateArray} {rest : List PortEvent}
    (h : s.pending = .reset c :: rest) : step s = takeReset c (takeEvent rest s) := by
  simp only [step, h]

theorem step_abandoned {s : State} {r : Request} {c : StateArray} {rest : List PortEvent}
    (h : s.pending = .abandoned r c :: rest) : step s = takeReset c (takeEvent rest s) := by
  simp only [step, h, abandonRequest_eq]

theorem exec_seed (seed : Word) (s : State) :
    exec (.seed seed) s = respond .ok 0#32 (markSeeded (setEngine (newEngine seed) s)) := rfl

theorem exec_cellseed (x z : Word) (s : State) :
    exec (.cellseed x z) s = respond .ok (derivedSeed x z) s := rfl

theorem exec_isspecial (x z : Word) (s : State) :
    exec (.isspecial x z) s = respond .ok (boolWord (seedIsSpecial (derivedSeed x z))) s := rfl

/-- NEXT on a seeded block: one draw (R57). -/
theorem exec_next_seeded {s : State} (h : s.block.seeded = true) :
    exec .next s = respond .ok (draw s.block.eng).1 (setEngine (draw s.block.eng).2 s) := by
  simp only [exec, execNext, isSeeded_eq, h, if_true]

/-- NEXT on an unseeded block: UNSEEDED (R72). -/
theorem exec_next_unseeded {s : State} (h : s.block.seeded = false) :
    exec .next s = respond .unseeded 0#32 s := by
  simp [exec, execNext, isSeeded_eq, h, raiseError, errorStatus]

/-- Every command that answers a next state takes nothing from the port and adds one response
(R88). -/
theorem exec_adds_one_response {i : Instr} {s t : State} (h : exec i s = .next t) :
    t.pending = s.pending ∧ ∃ resp, t.answered = s.answered ++ [resp] := by
  obtain ⟨hp, ⟨_, -, -, ha⟩ | ⟨-, -, -, ha⟩ | ⟨-, -, -, ha⟩ | ⟨⟨_, _, -, ha⟩, -⟩ | ⟨⟨_, _, -, ha⟩, -⟩⟩ :=
    exec_cases h
  all_goals exact ⟨hp, _, ha⟩

/-- SEED writes the whole block (R56). -/
theorem exec_seed_block {seed : Word} {s t : State} (h : exec (.seed seed) s = .next t) :
    t.block = ⟨newEngine seed, true⟩ := by
  rw [(respond_next h).1]
  rfl

/-- CELLSEED and ISSPECIAL write no state (R65). -/
theorem exec_cell_block {x z : Word} {s t : State}
    (h : exec (.cellseed x z) s = .next t ∨ exec (.isspecial x z) s = .next t) :
    t.block = s.block := by
  rcases h with h | h
  · exact (respond_next h).1
  · exact (respond_next h).1

/-- An UNSEEDED NEXT writes no state (R72). -/
theorem exec_next_unseeded_block {s t : State} (hb : s.block.seeded = false)
    (h : exec .next s = .next t) : t.block = s.block := by
  rw [exec_next_unseeded hb] at h
  exact (respond_next h).1

/-- A NEXT that draws moves the engine by one draw and leaves SEEDED (R57). -/
theorem exec_next_seeded_block {s t : State} (hb : s.block.seeded = true)
    (h : exec .next s = .next t) : t.block = ⟨(draw s.block.eng).2, true⟩ := by
  rw [exec_next_draws hb] at h
  cases h
  rfl

/-- A draw sets the cursor to 1 from 624 and adds one otherwise (R55). -/
theorem draw_cursor (e : Engine) :
    (draw e).2.cursor.val = if e.cursor.val = 624 then 1 else e.cursor.val + 1 := by
  obtain ⟨hc, hd⟩ | ⟨hlt, hd⟩ := draw_cases e
  · rw [hd, emitWord_cursor, if_pos hc]
    rfl
  · rw [hd, emitWord_cursor, if_neg (by omega)]

/-- A draw writes the array only when it twists (R55). -/
theorem draw_mt_of_cursor_ne {e : Engine} (h : e.cursor.val ≠ 624) : (draw e).2.mt = e.mt := by
  obtain ⟨hc, -⟩ | ⟨_, hd⟩ := draw_cases e
  · exact absurd hc h
  · rw [hd, emitWord_mt]

end Sys2Proof.Machine
end

section
/-! The invariants of a step. A step can do four things to the block; both invariants follow from
these. -/

namespace Sys2Proof.Machine

/-- What a step that answers a next state can do to the block: leave it, seed it, draw from its seeded
engine, or reset it (R24). -/
theorem step_block_cases {s t : State} (h : step s = .next t) :
    t.block = s.block ∨ (∃ seed, t.block = ⟨newEngine seed, true⟩) ∨
      (s.block.seeded = true ∧ t.block = ⟨(draw s.block.eng).2, true⟩) ∨
      ∃ c, t.block = resetBlock c := by
  obtain ⟨-, rfl⟩ | ⟨r, rest, i, -, -, hx⟩ | ⟨r, rest, e, -, -, hx⟩ | ⟨ev, rest, c, -, -, hx⟩ :=
    step_cases h
  · exact .inl rfl
  · obtain ⟨-, ⟨seed, -, hb, -⟩ | ⟨-, hs, hb, -⟩ | ⟨-, -, hb, -⟩ | ⟨-, hb⟩ | ⟨-, hb⟩⟩ := exec_cases hx
    · exact .inr (.inl ⟨seed, hb⟩)
    · exact .inr (.inr (.inl ⟨hs, hb⟩))
    all_goals exact .inl hb
  · exact .inl (raiseError_next hx).1
  · exact .inr (.inr (.inr ⟨c, (takeReset_next hx).1⟩))

/-- Settles O23: of the four things a step does to the block, only a reset can leave it unseeded anew,
and a reset fills the cursor. -/
theorem unseededCursorStaysFull : Obligations.UnseededCursorStaysFull := by
  intro s t hs hstep hb
  obtain h | ⟨seed, h⟩ | ⟨-, h⟩ | ⟨c, h⟩ := step_block_cases hstep
  · rw [h] at hb ⊢
    exact hs hb
  · simp [h] at hb
  · simp [h] at hb
  · rw [h, resetBlock_cursor]
    rfl

/-- Settles O25: SEED starts a stream at 0 draws, NEXT moves one draw on, and a reset leaves the block
unseeded. -/
theorem engineStaysOnSomeStream : Obligations.EngineStaysOnSomeStream := by
  intro s t hs hstep hb
  obtain h | ⟨seed, h⟩ | ⟨hseeded, h⟩ | ⟨c, h⟩ := step_block_cases hstep
  · rw [h] at hb ⊢
    exact hs hb
  · exact ⟨seed, 0, by rw [h, drawMany]⟩
  · obtain ⟨seed, k, hk⟩ := hs hseeded
    exact ⟨seed, k + 1, by rw [h, drawMany, hk]⟩
  · simp [h] at hb

/-- Settles O22. -/
theorem resetStateIsUnseeded : Obligations.ResetStateIsUnseeded := ⟨rfl, rfl, rfl, rfl⟩

/-- Settles O24: the reset state's cursor is 624. -/
theorem unseededCursorFullAtReset : Obligations.UnseededCursorFullAtReset :=
  fun _ => resetStateIsUnseeded.2.1

/-- Settles O26: the reset state is unseeded. -/
theorem onSomeStreamAtReset : Obligations.OnSomeStreamAtReset := by
  intro h
  rw [resetStateIsUnseeded.1] at h
  cases h

end Sys2Proof.Machine
end

section
/-! Noninterference: what an unseeded engine holds reaches no answer. Each operation of a step keeps
two states alike to the host, so a step does, so a run of any length does. -/

namespace Sys2Proof.Machine

/-- Both outcomes are next states, and the two states are alike to the host. -/
def NextAlike (a b : Result) : Prop :=
  ∃ s t, a = .next s ∧ b = .next t ∧ SameToHost s t

section
variable {s t : State} (h : SameToHost s t)
include h

theorem sameToHost_takeEvent (rest : List PortEvent) :
    SameToHost (takeEvent rest s) (takeEvent rest t) := by
  obtain ⟨-, ha, hb, he⟩ := h
  exact ⟨rfl, ha, hb, he⟩

theorem sameToHost_setEngine (e : Engine) : SameToHost (setEngine e s) (setEngine e t) := by
  obtain ⟨hp, ha, hb, -⟩ := h
  exact ⟨hp, ha, hb, fun _ => rfl⟩

/-- Setting SEEDED exposes the engine, so the two engines must be equal first. -/
theorem sameToHost_markSeeded (he : s.block.eng = t.block.eng) :
    SameToHost (markSeeded s) (markSeeded t) := by
  obtain ⟨hp, ha, -, -⟩ := h
  exact ⟨hp, ha, rfl, fun _ => he⟩

theorem nextAlike_respond (st : Status) (w : Word) : NextAlike (respond st w s) (respond st w t) := by
  obtain ⟨hp, ha, hb, he⟩ := h
  exact ⟨_, _, rfl, rfl, hp, by rw [ha], hb, he⟩

/-- A reset leaves both blocks with the contents that come with it (R84). -/
theorem nextAlike_takeReset (c : StateArray) : NextAlike (takeReset c s) (takeReset c t) := by
  obtain ⟨hp, ha, -, -⟩ := h
  exact ⟨_, _, rfl, rfl, hp, ha, rfl, fun _ => rfl⟩

/-- Only NEXT reads the engine, and it does so only where SEEDED = 1, where the engines agree. -/
theorem nextAlike_exec (i : Instr) : NextAlike (exec i s) (exec i t) := by
  cases i with
  | seed seed =>
    rw [exec_seed, exec_seed]
    exact nextAlike_respond (sameToHost_markSeeded (sameToHost_setEngine h _) rfl) _ _
  | next =>
    have ⟨_, _, hb, he⟩ := h
    cases hs : s.block.seeded with
    | true =>
      rw [exec_next_seeded hs, exec_next_seeded (hb ▸ hs), ← he hs]
      exact nextAlike_respond (sameToHost_setEngine h _) _ _
    | false =>
      rw [exec_next_unseeded hs, exec_next_unseeded (hb ▸ hs)]
      exact nextAlike_respond h _ _
  | cellseed x z =>
    rw [exec_cellseed, exec_cellseed]
    exact nextAlike_respond h _ _
  | isspecial x z =>
    rw [exec_isspecial, exec_isspecial]
    exact nextAlike_respond h _ _

theorem nextAlike_step : NextAlike (step s) (step t) := by
  have hpst : s.pending = t.pending := h.1
  match hs : s.pending with
  | [] =>
    rw [step_idle hs, step_idle (hpst ▸ hs)]
    exact ⟨s, t, rfl, rfl, h⟩
  | .request r :: rest =>
    cases hd : decode r with
    | ok i =>
      rw [step_request_ok hs hd, step_request_ok (hpst ▸ hs) hd]
      exact nextAlike_exec (sameToHost_takeEvent h rest) i
    | error e =>
      rw [step_request_error hs hd, step_request_error (hpst ▸ hs) hd]
      exact nextAlike_respond (sameToHost_takeEvent h rest) _ _
  | .reset c :: rest =>
    rw [step_reset hs, step_reset (hpst ▸ hs)]
    exact nextAlike_takeReset (sameToHost_takeEvent h rest) c
  | .abandoned r c :: rest =>
    rw [step_abandoned hs, step_abandoned (hpst ▸ hs)]
    exact nextAlike_takeReset (sameToHost_takeEvent h rest) c

end

theorem nextAlike_runSteps (n : Nat) {s t : State} (h : SameToHost s t) :
    NextAlike (runSteps n s) (runSteps n t) := by
  induction n generalizing s t with
  | zero => exact ⟨s, t, rfl, rfl, h⟩
  | succ n ih =>
    obtain ⟨s', t', hs, ht, h'⟩ := nextAlike_step h
    simp only [runSteps, hs, ht]
    exact ih h'

/-- Two unseeded blocks at the same port are alike to the host, whatever their engines hold (R23). -/
theorem sameToHost_unseeded (e e' : Engine) (evs : List PortEvent) (out : List Response) :
    SameToHost ⟨⟨e, false⟩, evs, out⟩ ⟨⟨e', false⟩, evs, out⟩ :=
  ⟨rfl, rfl, rfl, nofun⟩

/-- Settles O27, by cases on the port's oldest event and then on the command. -/
theorem unseededEngineStaysHidden : Obligations.UnseededEngineStaysHidden :=
  fun _ _ h => nextAlike_step h

/-- Settles O28, by induction on the number of steps. -/
theorem resetContentsNeverShow : Obligations.ResetContentsNeverShow := by
  intro n evs out e e'
  obtain ⟨t, t', ht, ht', hp, ha, hb, he⟩ := nextAlike_runSteps n (sameToHost_unseeded e e' evs out)
  refine ⟨t, t', ht, ht', ha, hp, hb, fun hs => ?_⟩
  calc t.block = ⟨t.block.eng, t.block.seeded⟩ := rfl
    _ = ⟨t'.block.eng, t'.block.seeded⟩ := by rw [he hs, hb]

end Sys2Proof.Machine
end

section
/-! Who writes SEEDED, how the cursor moves, and the frames of the commands. -/

namespace Sys2Proof.Machine

theorem exec_leaves_seeded {i : Instr} {s t : State} (hi : ∀ seed, i ≠ .seed seed)
    (h : exec i s = .next t) : t.block.seeded = s.block.seeded := by
  obtain ⟨-, ⟨seed, rfl, -⟩ | ⟨-, hs, hb, -⟩ | ⟨-, -, hb, -⟩ | ⟨-, hb⟩ | ⟨-, hb⟩⟩ := exec_cases h
  · exact absurd rfl (hi seed)
  · rw [hb, hs]
  all_goals rw [hb]

/-- SEED, CELLSEED and ISSPECIAL do not read SEEDED: they answer alike and leave the same engine
whatever it holds (R18). -/
theorem exec_ignores_seeded {i : Instr} (hi : i ≠ .next) (s : State) (b : Bool) :
    ∃ t u, exec i s = .next t ∧ exec i { s with block := { s.block with seeded := b } } = .next u ∧
      u.answered = t.answered ∧ u.block.eng = t.block.eng := by
  cases i with
  | next => exact absurd rfl hi
  | seed seed => exact ⟨_, _, exec_seed .., exec_seed .., rfl, rfl⟩
  | cellseed x z => exact ⟨_, _, exec_cellseed .., exec_cellseed .., rfl, rfl⟩
  | isspecial x z => exact ⟨_, _, exec_isspecial .., exec_isspecial .., rfl, rfl⟩

/-- Settles O19. -/
theorem onlySeedSetsSeeded : Obligations.OnlySeedSetsSeeded := by
  refine ⟨resetStateIsUnseeded.1, fun s c rest hp => ⟨_, step_reset hp, rfl⟩, fun i s t h => ⟨?_, ?_⟩,
    fun s hs => exec_next_unseeded hs, fun i s b hi => exec_ignores_seeded hi s b⟩
  · rintro ⟨seed, rfl⟩
    rw [exec_seed_block h]
  · exact fun hi => exec_leaves_seeded hi h

/-- Settles O20, by cases on what the request decodes to. -/
theorem cursorMovesOnlyAsStated : Obligations.CursorMovesOnlyAsStated := by
  intro s t h r rest hp
  refine ⟨fun seed hd => ?_, fun hd hs => ?_, fun hd hs => ?_, fun x z hd => ?_, fun e hd => ?_⟩
  · rw [step_request_ok hp hd] at h
    rw [exec_seed_block h]
    rfl
  · rw [step_request_ok hp hd] at h
    have hc : t.block.eng.cursor.val =
        if s.block.eng.cursor.val = 624 then 1 else s.block.eng.cursor.val + 1 := by
      rw [exec_next_seeded_block (s := takeEvent rest s) hs h]
      exact draw_cursor s.block.eng
    have hpos : 1 ≤ t.block.eng.cursor.val := by
      rw [hc]
      split <;> omega
    exact ⟨hc, hpos, Nat.le_of_lt_succ t.block.eng.cursor.isLt⟩
  · rw [step_request_ok hp hd] at h
    rw [exec_next_unseeded_block (s := takeEvent rest s) hs h, takeEvent_block]
  · have hx := hd.imp (fun hd => step_request_ok hp hd ▸ h) (fun hd => step_request_ok hp hd ▸ h)
    rw [exec_cell_block hx, takeEvent_block]
  · rw [step_request_error hp hd] at h
    rw [(raiseError_next h).1, takeEvent_block]

/-- A NEXT whose cursor is not 624 leaves the array, seeded or not. -/
theorem exec_next_leaves_mt {s t : State} (h : exec .next s = .next t)
    (hc : s.block.eng.cursor.val ≠ 624) : t.block.eng.mt = s.block.eng.mt := by
  cases hs : s.block.seeded with
  | true => rw [exec_next_seeded_block hs h, draw_mt_of_cursor_ne hc]
  | false => rw [exec_next_unseeded_block hs h]

/-- Settles O41. -/
theorem engineCommandFrames : Obligations.EngineCommandFrames := by
  refine ⟨fun seed s t h => exec_adds_one_response h, fun s t h => ?_⟩
  obtain ⟨hp, hresp⟩ := exec_adds_one_response h
  have hseeded : t.block.seeded = s.block.seeded := exec_leaves_seeded (by simp) h
  exact ⟨hp, hresp, hseeded, fun hc i => by rw [exec_next_leaves_mt h hc],
    fun hs => exec_next_unseeded_block hs h⟩

/-- Settles O49. -/
theorem cellCommandFrames : Obligations.CellCommandFrames := by
  intro x z s t h
  have hb : t.block = s.block := exec_cell_block h
  obtain ⟨hp, hresp⟩ : t.pending = s.pending ∧ ∃ resp, t.answered = s.answered ++ [resp] :=
    h.elim exec_adds_one_response exec_adds_one_response
  exact ⟨fun i => by rw [hb], by rw [hb], by rw [hb], hp, hresp⟩

/-- Settles O21: a cursor is below 625, so 10 bits hold it. -/
theorem cursorRegisterHoldsTheCursor : Obligations.CursorRegisterHoldsTheCursor := by
  intro e
  have hlt : e.cursor.val < 625 := e.cursor.isLt
  have hreg : (cursorRegister e).toNat = e.cursor.val := by
    rw [cursorRegister, BitVec.toNat_ofNat]
    exact Nat.mod_eq_of_lt (Nat.lt_trans hlt (by decide))
  exact ⟨hreg, by omega⟩

end Sys2Proof.Machine
end

section
/-! The port's order: a pending request is answered by the next step, so a list of requests is answered
one by one; and what a SEED leaves. -/

namespace Sys2Proof.Machine

/-- Every command answers in every state, with one response (R30, R88). -/
theorem exec_answers (i : Instr) (s : State) : ∃ t resp, exec i s = .next t ∧
    t.pending = s.pending ∧ t.answered = s.answered ++ [resp] := by
  cases i with
  | seed seed => exact ⟨_, _, exec_seed seed s, rfl, rfl⟩
  | next =>
    cases hs : s.block.seeded with
    | true => exact ⟨_, _, exec_next_seeded hs, rfl, rfl⟩
    | false => exact ⟨_, _, exec_next_unseeded hs, rfl, rfl⟩
  | cellseed x z => exact ⟨_, _, exec_cellseed x z s, rfl, rfl⟩
  | isspecial x z => exact ⟨_, _, exec_isspecial x z s, rfl, rfl⟩

/-- The port's oldest event being a request, legal or not, the step takes it and adds one response
(R88). -/
theorem step_answers_request {s : State} {r : Request} {rest : List PortEvent}
    (h : s.pending = .request r :: rest) :
    ∃ t resp, step s = .next t ∧ t.pending = rest ∧ t.answered = s.answered ++ [resp] := by
  cases hd : decode r with
  | ok i =>
    rw [step_request_ok h hd]
    exact exec_answers i (takeEvent rest s)
  | error e =>
    rw [step_request_error h hd]
    exact ⟨_, _, rfl, rfl, rfl⟩

/-- A run goes on from where its first step leaves the machine. -/
theorem runSteps_succ {s t : State} (h : step s = .next t) (k : Nat) :
    runSteps (k + 1) s = runSteps k t := by
  simp only [runSteps, h]

/-- Settles O10, by induction on the pending requests: the first step adds the first response and leaves
the other requests pending. -/
theorem responsesComeInAcceptanceOrder : Obligations.ResponsesComeInAcceptanceOrder := by
  intro rs
  induction rs with
  | nil =>
    intro s hp
    refine ⟨[], rfl, fun k hk => ?_⟩
    obtain rfl : k = 0 := Nat.le_zero.mp hk
    exact ⟨s, rfl, hp, by simp⟩
  | cons r rs ih =>
    intro s hp
    obtain ⟨s₁, resp, hstep, hp₁, ha₁⟩ := step_answers_request hp
    obtain ⟨resps, hlen, hrun⟩ := ih s₁ hp₁
    refine ⟨resp :: resps, by simp [hlen], fun k hk => ?_⟩
    cases k with
    | zero => exact ⟨s, rfl, hp, by simp⟩
    | succ k =>
      obtain ⟨t, ht, hpt, hat⟩ := hrun k (Nat.le_of_succ_le_succ hk)
      exact ⟨t, (runSteps_succ hstep k).trans ht, hpt, by simp [hat, ha₁]⟩

/-- Settles O32: SEED completes in every state, and the block it leaves names no part of the old
one. -/
theorem seedDiscardsTheOldStream : Obligations.SeedDiscardsTheOldStream := by
  intro seed s s'
  obtain ⟨t, -, ht, -⟩ := exec_answers (.seed seed) s
  obtain ⟨t', -, ht', -⟩ := exec_answers (.seed seed) s'
  obtain ⟨u, -, hu, -⟩ := exec_answers (.seed seed) t
  exact ⟨t, t', ht, ht', by rw [exec_seed_block ht, exec_seed_block ht'],
    u, hu, by rw [exec_seed_block hu, exec_seed_block ht]⟩

end Sys2Proof.Machine
end

section
/-! Encoding: the four legal CMD words, and a request as its three words and as its 96 bits. -/

namespace Sys2Proof

open Machine

/-- A CMD word is legal in R43's terms exactly when it is one of the four of R41. -/
theorem not_illegalCmd_iff (cmd : Word) :
    ¬ IllegalCmd cmd ↔ cmd = 1#32 ∨ cmd = 2#32 ∨ cmd = 3#32 ∨ cmd = 4#32 := by
  simp only [IllegalCmd, ← BitVec.toNat_inj, BitVec.toNat_ofNat]
  omega

/-- A CMD word whose reserved field is 0 is its opcode. -/
theorem cmd_eq_ofNat_opcode {cmd : Word} {k : Nat} (h0 : cmd.toNat / 256 = 0)
    (hk : cmd.toNat % 256 = k) : cmd = BitVec.ofNat 32 k := by
  apply BitVec.eq_of_toNat_eq
  rw [BitVec.toNat_ofNat]
  omega

/-- The decoder takes the operand words as the opcode uses them (R39). -/
theorem decode_eq_operate {r : Request} {op : Opcode} (h : decodeCmd r.cmd = .ok op) :
    decode r = .ok (operate op r.arg0 r.arg1) := by
  simp only [decode, h]

section
variable {r : Request}

theorem decode_cmd_one (h : r.cmd = 1#32) : decode r = .ok (.seed r.arg0) :=
  decode_eq_operate (h ▸ decodeCmd_seed)

theorem decode_cmd_two (h : r.cmd = 2#32) : decode r = .ok .next :=
  decode_eq_operate (h ▸ decodeCmd_next)

theorem decode_cmd_three (h : r.cmd = 3#32) : decode r = .ok (.cellseed r.arg0 r.arg1) :=
  decode_eq_operate (h ▸ decodeCmd_cellseed)

theorem decode_cmd_four (h : r.cmd = 4#32) : decode r = .ok (.isspecial r.arg0 r.arg1) :=
  decode_eq_operate (h ▸ decodeCmd_isspecial)

end

/-- The decoder accepts a request exactly when its CMD word is legal (R42, R43). -/
theorem decode_ok_iff_not_illegalCmd (r : Request) :
    (∃ i, decode r = .ok i) ↔ ¬ IllegalCmd r.cmd := by
  rw [not_illegalCmd_iff]
  constructor
  · rintro ⟨i, hi⟩
    obtain ⟨h, -⟩ | ⟨h, -⟩ | ⟨h, -⟩ | ⟨h, -⟩ := decode_ok_cases hi
    all_goals simp [h]
  · rintro (h | h | h | h)
    · exact ⟨_, decode_cmd_one h⟩
    · exact ⟨_, decode_cmd_two h⟩
    · exact ⟨_, decode_cmd_three h⟩
    · exact ⟨_, decode_cmd_four h⟩

theorem illegalCmd_iff_decode_error (r : Request) :
    IllegalCmd r.cmd ↔ ∃ e, decode r = .error e := by
  rw [← not_not (a := IllegalCmd r.cmd), ← decode_ok_iff_not_illegalCmd]
  cases decode r <;> simp

theorem legal_iff_not_illegalCmd (r : Request) : r.legal = true ↔ ¬ IllegalCmd r.cmd := by
  simp only [Request.legal, IllegalCmd, Bool.and_eq_true, beq_iff_eq, decide_eq_true_eq]
  omega

theorem decode_encode (i : Instr) : decode (encode i) = .ok i := by
  cases i with
  | seed s => exact (Laws.RoundTrip.seed s rfl).1
  | next => exact (Laws.RoundTrip.next rfl).1
  | cellseed x z => exact (Laws.RoundTrip.cellseed x z rfl).1
  | isspecial x z => exact (Laws.RoundTrip.isspecial x z rfl).1

/-- The three words are read back from the 96 bits (R44). -/
theorem requestOfBits_requestBits (r : Request) : requestOfBits (requestBits r) = r := by
  obtain ⟨cmd, arg0, arg1⟩ := r
  have h0 : cmd.toNat < 2 ^ 32 := cmd.isLt
  have h1 : arg0.toNat < 2 ^ 32 := arg0.isLt
  have h2 : arg1.toNat < 2 ^ 32 := arg1.isLt
  simp only [requestOfBits, requestBits_toNat, Request.mk.injEq, ← BitVec.toNat_inj,
    BitVec.toNat_ofNat]
  omega

/-- The 96 bits are made of the three words alone (R44). -/
theorem requestBits_requestOfBits (b : BitVec Config.requestBits) :
    requestBits (requestOfBits b) = b := by
  have hb : b.toNat < 2 ^ 96 := b.isLt
  apply BitVec.eq_of_toNat_eq
  simp only [requestBits_toNat, requestOfBits, BitVec.toNat_ofNat]
  omega

/-- The request that all 96 bits of a request stand for is that request. -/
theorem tableRequest_requestBits (r : Request) :
    tableRequest Config.requestBits (requestBits r).toNat = r := by
  rw [tableRequest, Nat.mod_eq_of_lt (requestBits r).isLt, BitVec.ofNat_toNat, BitVec.setWidth_eq,
    requestOfBits_requestBits]

/-- Settles O5. -/
theorem requestsRoundTripBitForBit : Obligations.RequestsRoundTripBitForBit := by
  refine ⟨fun i _ => ?_, requestOfBits_requestBits, requestBits_requestOfBits, fun _ => rfl, rfl, rfl⟩
  simp only [decodeTableWord, tableRequest_requestBits, decode_encode]

/-- Settles O2: with the reserved field 0 the CMD word is its opcode, and the refused words are the
illegal ones. -/
theorem decodingFollowsTheCmdWord : Obligations.DecodingFollowsTheCmdWord := by
  intro cmd arg0 arg1
  have refused (h : IllegalCmd cmd) : ∃ e, decode ⟨cmd, arg0, arg1⟩ = .error e :=
    (illegalCmd_iff_decode_error ⟨cmd, arg0, arg1⟩).mp h
  refine ⟨fun h => refused (.inl h), fun h0 => ⟨fun hk => ?_, fun hk => ?_, fun hk => ?_, fun hk => ?_,
    fun h1 h2 h3 h4 => refused (.inr (by omega))⟩⟩
  · exact decode_cmd_one (cmd_eq_ofNat_opcode h0 hk)
  · exact decode_cmd_two (cmd_eq_ofNat_opcode h0 hk)
  · exact decode_cmd_three (cmd_eq_ofNat_opcode h0 hk)
  · exact decode_cmd_four (cmd_eq_ofNat_opcode h0 hk)

/-- Settles O3. -/
theorem illegalRequestsAreTheUndecoded : Obligations.IllegalRequestsAreTheUndecoded :=
  fun r => ⟨illegalCmd_iff_decode_error r, legal_iff_not_illegalCmd r⟩

/-- Settles O4: forwards by the four ways a request decodes, backwards by cases on the command. -/
theorem decodedCommandFixesItsWords : Obligations.DecodedCommandFixesItsWords := by
  intro r i
  constructor
  · intro h
    obtain ⟨hc, rfl⟩ | ⟨hc, rfl⟩ | ⟨hc, rfl⟩ | ⟨hc, rfl⟩ := decode_ok_cases h
    · exact ⟨hc, rfl⟩
    · exact ⟨hc, trivial⟩
    · exact ⟨hc, rfl, rfl⟩
    · exact ⟨hc, rfl, rfl⟩
  · rintro ⟨hc, hw⟩
    cases i with
    | seed s => exact hw ▸ decode_cmd_one hc
    | next => exact decode_cmd_two hc
    | cellseed x z => exact hw.1 ▸ hw.2 ▸ decode_cmd_three hc
    | isspecial x z => exact hw.1 ▸ hw.2 ▸ decode_cmd_four hc

/-- Settles O1: the four commands by their CMD words; the five illegal words by evaluation, since which
decode error each one is depends on its fields. -/
theorem decodesRequestsOfTheSpec : Obligations.DecodesRequestsOfTheSpec :=
  ⟨decode_cmd_one rfl, decode_cmd_two rfl, decode_cmd_three rfl, decode_cmd_four rfl, by decide⟩

end Sys2Proof
end

section
/-! Host integers as operand words, and the assembler's lines. -/

namespace Sys2Proof.Machine

theorem trunc32_toNat (v : Int) : ((trunc32 v).toNat : Int) = v % 4294967296 := by
  rw [trunc32, BitVec.toNat_ofInt]
  omega

/-- `asI32` is the library's signed reading of a bit vector. -/
theorem asI32_eq_toInt (w : Word) : asI32 w = w.toInt := by
  rw [asI32, BitVec.toInt_eq_toNat_cond]
  split <;> split <;> omega

theorem trunc32_asI32 (w : Word) : trunc32 (asI32 w) = w := by
  rw [asI32_eq_toInt, trunc32, BitVec.ofInt_toInt]

theorem asI32_trunc32 {v : Int} (h1 : -2147483648 ≤ v) (h2 : v ≤ 2147483647) :
    asI32 (trunc32 v) = v := by
  rw [asI32_eq_toInt, trunc32]
  exact BitVec.toInt_ofInt_eq_self (by decide) (by omega) (by omega)

/-- Settles O6. -/
theorem hostIntegersArePresentedModulo : Obligations.HostIntegersArePresentedModulo :=
  ⟨trunc32_toNat, trunc32_asI32, fun _ => asI32_trunc32, by decide⟩

theorem literalWord_hex_toNat {v : Nat} (h : v ≤ 0xFFFFFFFF) : (literalWord (.hex v)).toNat = v := by
  rw [literalWord, BitVec.toNat_ofNat]
  omega

section
variable {l x z : Literal}

theorem u32Operand_inRange (h : l.inU32 = true) : u32Operand l = some (literalWord l) := if_pos h

theorem u32Operand_outOfRange (h : l.inU32 = false) : u32Operand l = none := by simp [u32Operand, h]

theorem i32Operand_inRange (h : l.inI32 = true) : i32Operand l = some (literalWord l) := if_pos h

theorem i32Operand_outOfRange (h : l.inI32 = false) : i32Operand l = none := by simp [i32Operand, h]

theorem assemble_seed (h : l.inU32 = true) :
    assemble (.seed l) = .ok [.issue (.seed (literalWord l))] := by
  simp only [assemble, u32Operand_inRange h]

/-- A line of two coordinates in range assembles on their words, as its mnemonic says (R45, R46). -/
theorem assemble_coordinates_inRange (h : (x.inI32 && z.inI32) = true) :
    assemble (.cellseed x z) = .ok [.issue (.cellseed (literalWord x) (literalWord z))] ∧
    assemble (.isspecial x z) = .ok [.issue (.isspecial (literalWord x) (literalWord z))] ∧
    assemble (.seedcell x z) =
      .ok [.issue (.cellseed (literalWord x) (literalWord z)), .seedResult] := by
  obtain ⟨hx, hz⟩ := Bool.and_eq_true_iff.mp h
  simp [assemble, i32Operand_inRange hx, i32Operand_inRange hz, expandSeedcell]

/-- A line of two coordinates, one of them out of range, is refused, whatever the line's mnemonic
(R45). -/
theorem assemble_coordinates_outOfRange (h : (x.inI32 && z.inI32) = false) :
    assemble (.cellseed x z) = .error .outOfRange ∧ assemble (.isspecial x z) = .error .outOfRange ∧
      assemble (.seedcell x z) = .error .outOfRange := by
  cases hx : x.inI32 with
  | false => simp [assemble, i32Operand_outOfRange hx]
  | true =>
    have hz : z.inI32 = false := by simpa [hx] using h
    simp [assemble, i32Operand_outOfRange hz]

end

/-- A line whose literals are in range assembles. -/
theorem assemble_wellFormed {l : Line} (h : l.wellFormed = true) : ∃ hs, assemble l = .ok hs := by
  cases l with
  | seed l => exact ⟨_, assemble_seed h⟩
  | next => exact ⟨_, rfl⟩
  | cellseed x z => exact ⟨_, (assemble_coordinates_inRange h).1⟩
  | isspecial x z => exact ⟨_, (assemble_coordinates_inRange h).2.1⟩
  | seedcell x z => exact ⟨_, (assemble_coordinates_inRange h).2.2⟩
  | skip k => exact ⟨_, rfl⟩

/-- A line with a literal out of range is refused. -/
theorem assemble_not_wellFormed {l : Line} (h : l.wellFormed = false) :
    assemble l = .error .outOfRange := by
  cases l with
  | seed l => simp only [assemble, u32Operand_outOfRange h]
  | next => cases h
  | cellseed x z => exact (assemble_coordinates_outOfRange h).1
  | isspecial x z => exact (assemble_coordinates_outOfRange h).2.1
  | seedcell x z => exact (assemble_coordinates_outOfRange h).2.2
  | skip k => cases h

theorem assemble_ok_iff (l : Line) : (∃ hs, assemble l = .ok hs) ↔ l.wellFormed = true := by
  refine ⟨fun ⟨hs, hok⟩ => ?_, assemble_wellFormed⟩
  by_contra hwf
  rw [assemble_not_wellFormed (Bool.eq_false_iff.mpr hwf)] at hok
  cases hok

/-- Settles O7. -/
theorem assemblerRefusesOutOfRange : Obligations.AssemblerRefusesOutOfRange := by
  refine ⟨assemble_ok_iff, fun _ => assemble_not_wellFormed, fun v => ?_, fun v => ?_,
    fun v => ⟨?_, ?_⟩, fun _ => rfl, fun _ => literalWord_hex_toNat, fun _ => assemble_seed, rfl,
    fun _ _ hx hz => assemble_coordinates_inRange (Bool.and_eq_true_iff.mpr ⟨hx, hz⟩), fun _ => rfl⟩
  all_goals simp [Literal.inU32, Literal.inI32]

end Sys2Proof.Machine
end

section
/-! The RESULT word of each response. -/

namespace Sys2Proof.Machine

/-- The bits 31:1 of a boolean's RESULT word are 0 (R40). -/
theorem boolWord_getLsbD (b : Bool) {k : Nat} (h : 1 ≤ k) : (boolWord b).getLsbD k = false := by
  have hk : k ≠ 0 := by omega
  cases b <;> simp [boolWord, hk]

section
variable {i : Instr} {s t : State} {resp : Response}

/-- What a command answers, by the command (R40). -/
theorem exec_response_cases (h : exec i s = .next t) (ha : t.answered = s.answered ++ [resp]) :
    (∃ seed, i = .seed seed ∧ resp = ⟨.ok, 0#32⟩) ∨
    (i = .next ∧ resp = ⟨.ok, (draw s.block.eng).1⟩) ∨
    (i = .next ∧ resp = ⟨.unseeded, 0#32⟩) ∨
    (∃ x z, i = .cellseed x z ∧ resp = ⟨.ok, derivedSeed x z⟩) ∨
    (∃ x z, i = .isspecial x z ∧ resp = ⟨.ok, boolWord (seedIsSpecial (derivedSeed x z))⟩) := by
  have added {resp' : Response} (h' : t.answered = s.answered ++ [resp']) : resp = resp' := by
    simpa [ha] using h'
  obtain ⟨-, ⟨seed, hi, -, h'⟩ | ⟨hi, -, -, h'⟩ | ⟨hi, -, -, h'⟩ | ⟨⟨x, z, hi, h'⟩, -⟩ |
    ⟨⟨x, z, hi, h'⟩, -⟩⟩ := exec_cases h
  · exact .inl ⟨seed, hi, added h'⟩
  · exact .inr (.inl ⟨hi, added h'⟩)
  · exact .inr (.inr (.inl ⟨hi, added h'⟩))
  · exact .inr (.inr (.inr (.inl ⟨x, z, hi, added h'⟩)))
  · exact .inr (.inr (.inr (.inr ⟨x, z, hi, added h'⟩)))

/-- The only error of a command is UNSEEDED, and its RESULT is 0 (R70, R72). -/
theorem exec_error_result (h : exec i s = .next t) (ha : t.answered = s.answered ++ [resp])
    (hst : resp.status ≠ .ok) : resp.result = 0#32 := by
  obtain ⟨_, -, rfl⟩ | ⟨-, rfl⟩ | ⟨-, rfl⟩ | ⟨_, _, -, rfl⟩ | ⟨_, _, -, rfl⟩ := exec_response_cases h ha
  case inr.inr.inl => rfl
  all_goals exact absurd rfl hst

/-- An error response to any request, legal or not, has RESULT 0 (R70). -/
theorem step_error_result {r : Request} {rest : List PortEvent} (hp : s.pending = .request r :: rest)
    (h : step s = .next t) (ha : t.answered = s.answered ++ [resp]) (hst : resp.status ≠ .ok) :
    resp.result = 0#32 := by
  cases hd : decode r with
  | ok i => exact exec_error_result (s := takeEvent rest s) (step_request_ok hp hd ▸ h) ha hst
  | error e =>
    rw [step_request_error hp hd] at h
    have hresp : resp = ⟨errorStatus .illegalCmd, 0#32⟩ := by
      simpa [ha] using (raiseError_next h).2.2
    rw [hresp]

end

/-- Settles O16, by cases on the command's answer. -/
theorem resultWordsByCommand : Obligations.ResultWordsByCommand := by
  refine ⟨fun i s t resp h ha hst => ?_, fun s t r rest resp => step_error_result⟩
  obtain ⟨seed, rfl, rfl⟩ | ⟨rfl, rfl⟩ | ⟨-, rfl⟩ | ⟨x, z, rfl, rfl⟩ | ⟨x, z, rfl, rfl⟩ :=
    exec_response_cases h ha
  · exact ⟨fun _ _ => rfl, nofun, nofun, nofun⟩
  · exact ⟨nofun, fun _ => rfl, nofun, nofun⟩
  · cases hst
  · refine ⟨nofun, nofun, ?_, nofun⟩
    rintro _ _ ⟨⟩
    rfl
  · refine ⟨nofun, nofun, nofun, ?_⟩
    rintro _ _ ⟨⟩
    exact ⟨rfl, fun _ hk => boolWord_getLsbD _ hk⟩

end Sys2Proof.Machine
end

section
/-! The host's expansions: a host step is the command it issues, so a script is a run of commands. -/

namespace Sys2Proof.Machine

/-- Presenting a command and stepping is executing it (R88). -/
theorem step_present (i : Instr) (s : State) : step (present i s) = exec i s :=
  step_request_ok rfl (decode_encode i)

section
variable {h : HostStep} {hs : List HostStep} {i : Instr} {s t : State}

theorem hostStep_eq_some (hc : hostCommand h s = some i) (hx : exec i s = .next t) :
    hostStep h s = some t := by
  simp only [hostStep, hc, step_present, hx]

theorem runScript_cons (hstep : hostStep h s = some t) : runScript (h :: hs) s = runScript hs t := by
  simp only [runScript, hstep]

/-- A script runs its first command and goes on from the state that leaves. -/
theorem runScript_issue (hx : exec i s = .next t) : runScript (.issue i :: hs) s = runScript hs t :=
  runScript_cons (hostStep_eq_some rfl hx)

/-- The second step of SEEDCELL seeds from the RESULT given last (R46). -/
theorem runScript_seedResult {resp : Response} (hl : s.answered.getLast? = some resp)
    (hx : exec (.seed resp.result) s = .next t) :
    runScript (.seedResult :: hs) s = runScript hs t :=
  runScript_cons (hostStep_eq_some (by simp [hostCommand, hl]) hx)

end

/-- Draws can be counted from the first one as from the last. -/
theorem drawMany_draw (k : Nat) (e : Engine) : drawMany k (draw e).2 = drawMany (k + 1) e := by
  induction k with
  | zero => rfl
  | succ k ih => rw [drawMany, ih, ← drawMany]

/-- SKIP k on a seeded block, by induction on k: its first NEXT draws once and leaves a seeded block on
which SKIP k - 1 goes on (R46). -/
theorem runScript_expandSkip (k : Nat) {s : State} (hs : s.block.seeded = true) :
    ∃ t resps, runScript (expandSkip k) s = some t ∧
      t.block = ⟨drawMany k s.block.eng, true⟩ ∧ t.pending = s.pending ∧
      t.answered = s.answered ++ resps ∧ resps.length = k ∧ ∀ r ∈ resps, r.status = .ok := by
  induction k generalizing s with
  | zero =>
    refine ⟨s, [], rfl, ?_, rfl, by simp, rfl, by simp⟩
    rw [drawMany, ← hs]
  | succ k ih =>
    obtain ⟨s₁, hx, hb₁, hp₁, ha₁⟩ : ∃ s₁, exec .next s = .next s₁ ∧
        s₁.block = ⟨(draw s.block.eng).2, true⟩ ∧ s₁.pending = s.pending ∧
        s₁.answered = s.answered ++ [⟨.ok, (draw s.block.eng).1⟩] :=
      ⟨_, exec_next_draws hs, rfl, rfl, rfl⟩
    obtain ⟨t, resps, ht, hb, hp, ha, hlen, hok⟩ := ih (s := s₁) (by rw [hb₁])
    refine ⟨t, ⟨.ok, (draw s.block.eng).1⟩ :: resps, (runScript_issue hx).trans ht, ?_,
      hp.trans hp₁, ?_, ?_, ?_⟩
    · rw [hb, hb₁, drawMany_draw]
    · rw [ha, ha₁, ← List.append_cons]
    · rw [List.length_cons, hlen]
    · exact List.forall_mem_cons.mpr ⟨rfl, hok⟩

/-- SEEDCELL in any state: the CELLSEED's response is the last one, so the SEED is of the derived seed
(R46). -/
theorem runScript_expandSeedcell (x z : Word) (s : State) :
    ∃ t, runScript (expandSeedcell x z) s = some t ∧
      t.block = ⟨newEngine (derivedSeed x z), true⟩ ∧ t.pending = s.pending ∧
      t.answered = s.answered ++ [⟨.ok, derivedSeed x z⟩, ⟨.ok, 0#32⟩] := by
  have hlast : (s.answered ++ [(⟨.ok, derivedSeed x z⟩ : Response)]).getLast? =
      some ⟨.ok, derivedSeed x z⟩ := List.getLast?_concat
  exact ⟨_, (runScript_issue (exec_cellseed x z s)).trans (runScript_seedResult hlast (exec_seed _ _)),
    rfl, rfl, List.append_assoc _ _ _⟩

/-- Settles O40. -/
theorem pseudoCommandsExpand : Obligations.PseudoCommandsExpand :=
  ⟨fun k _ hs => runScript_expandSkip k hs, runScript_expandSeedcell⟩

end Sys2Proof.Machine
end

section
/-! Seeding: the seeding step as exact arithmetic, `Init` as the only array of the seeding recurrence,
and SEED. -/

namespace Sys2Proof.Machine

/-- The seeding step modulo 2^32, at every index (R50). -/
theorem seedStep_toNat (p : Word) (i : Nat) :
    (seedStep p i).toNat =
      (1812433253 * (p.toNat ^^^ (p.toNat / 1073741824)) + i) % 4294967296 := by
  have hshift : (p ^^^ (p >>> seedShift)).toNat = p.toNat ^^^ (p.toNat / 1073741824) := by
    rw [BitVec.toNat_xor, BitVec.toNat_ushiftRight, Nat.shiftRight_eq_div_pow]
    rfl
  rw [seedStep, BitVec.toNat_add, BitVec.toNat_mul, hshift, BitVec.toNat_ofNat, BitVec.toNat_ofNat]
  exact (Nat.add_mod _ _ _).symm

/-- Settles O29: the shifted word has only its bits 1:0, so the XOR leaves every other bit. -/
theorem seedStepWrapsToAWord : Obligations.SeedStepWrapsToAWord := by
  refine ⟨fun p i _ _ => seedStep_toNat p i, fun p => ⟨?_, fun k hk => ?_⟩, by decide⟩
  · have hp := p.isLt
    rw [BitVec.toNat_ushiftRight, Nat.shiftRight_eq_div_pow]
    omega
  · have hhigh : (p >>> 30).getLsbD k = false := by
      rw [BitVec.getLsbD_ushiftRight]
      exact BitVec.getLsbD_of_ge _ _ (by omega)
    rw [BitVec.getLsbD_xor, hhigh, Bool.xor_false]

/-- The seeding recurrence between two neighbouring words of `Init` (R51). -/
theorem initArray_wordIndex_succ (seed : Word) {k : Nat} (h : k + 1 < 624) :
    stateRead (initArray seed) (wordIndex (k + 1)) =
      seedStep (stateRead (initArray seed) (wordIndex k)) (k + 1) := by
  have hsucc : wordIndex (k + 1) = ⟨k + 1, h⟩ := wordIndex_of_fin ⟨k + 1, h⟩
  have hk : wordIndex k = ⟨k, Nat.lt_of_succ_lt h⟩ := wordIndex_of_fin ⟨k, _⟩
  rw [hsucc, hk, initArray_succ]

theorem initArray_isSeeding (seed : Word) : IsSeeding seed (initArray seed) := by
  refine ⟨initArray_zero seed, fun i h1 h2 => ?_⟩
  obtain ⟨k, rfl⟩ : ∃ k, i = k + 1 := ⟨i - 1, by omega⟩
  exact initArray_wordIndex_succ seed (by omega)

/-- Arrays with the same words at the indices formed below 624 are equal. -/
theorem stateArray_ext_wordIndex {a b : StateArray}
    (h : ∀ i : Nat, i < 624 → stateRead a (wordIndex i) = stateRead b (wordIndex i)) : a = b :=
  stateArray_ext fun i => wordIndex_of_fin i ▸ h i.val i.isLt

/-- The recurrence fixes every word, from word 0 up. -/
theorem isSeeding_unique {seed : Word} {a b : StateArray} (ha : IsSeeding seed a)
    (hb : IsSeeding seed b) : a = b := by
  obtain ⟨ha0, ha⟩ := ha
  obtain ⟨hb0, hb⟩ := hb
  refine stateArray_ext_wordIndex fun i hi => ?_
  induction i with
  | zero => rw [ha0, hb0]
  | succ k ih =>
    have hprev := ih (by omega)
    rw [ha (k + 1) (by omega) (by omega), hb (k + 1) (by omega) (by omega), Nat.add_sub_cancel, hprev]

theorem eq_initArray_iff (seed : Word) (mt : StateArray) : mt = initArray seed ↔ IsSeeding seed mt :=
  ⟨fun h => h ▸ initArray_isSeeding seed, fun h => isSeeding_unique h (initArray_isSeeding seed)⟩

/-- Word 1 of `Init(5489)` (R50's example). -/
theorem initArray_5489_one : stateRead (initArray 5489#32) (wordIndex 1) = 1301868182#32 := by
  rw [initArray_wordIndex_succ _ (by decide), wordIndex_zero, initArray_zero]
  decide

/-- Settles O30: the corner-case words follow one from the other by the recurrence; word 623 is the
kernel's evaluation of the whole run. -/
theorem initIsTheSeedingRecurrence : Obligations.InitIsTheSeedingRecurrence := by
  have h01 : stateRead (initArray 0#32) (wordIndex 1) = 1#32 := by
    rw [initArray_wordIndex_succ _ (by decide), wordIndex_zero, initArray_zero]
    decide
  have h02 : stateRead (initArray 0#32) (wordIndex 2) = 1812433255#32 := by
    rw [initArray_wordIndex_succ _ (by decide), h01]
    decide
  have h2 : stateRead (initArray 5489#32) (wordIndex 2) = 2938499221#32 := by
    rw [initArray_wordIndex_succ _ (by decide), initArray_5489_one]
    decide
  have h3 : stateRead (initArray 5489#32) (wordIndex 3) = 2950281878#32 := by
    rw [initArray_wordIndex_succ _ (by decide), h2]
    decide
  exact ⟨eq_initArray_iff, initArray_zero _, h01, h02, initArray_5489_one, h2, h3,
    by decide +kernel⟩

/-- Settles O31: the state SEED leaves has `Init(seed)` as its array. -/
theorem seedConstructsTheEngine : Obligations.SeedConstructsTheEngine := fun seed s =>
  ⟨_, exec_seed seed s, initArray_isSeeding seed, rfl, rfl, rfl, rfl⟩

end Sys2Proof.Machine
end

section
/-! The word transforms of the twist and of the tempering, bit by bit. -/

namespace Sys2Proof.Machine

theorem upperMask_getLsbD (k : Nat) : upperMask.getLsbD k = decide (k = 31) := by
  rw [show upperMask = BitVec.twoPow 32 31 from rfl, BitVec.getLsbD_twoPow]
  simp [eq_comm]

theorem lowerMask_getLsbD (k : Nat) : lowerMask.getLsbD k = decide (k < 31) := by
  rw [show lowerMask = (BitVec.allOnes 31).setWidth 32 from rfl, BitVec.getLsbD_setWidth,
    BitVec.getLsbD_allOnes, ← Bool.decide_and, decide_eq_decide]
  omega

/-- No bit of the word is in both masked halves, so their sum is their OR (R53). -/
theorem maskedHalves_add_eq_or (a b : Word) :
    (a &&& upperMask) + (b &&& lowerMask) = (a &&& upperMask) ||| (b &&& lowerMask) := by
  refine BitVec.add_eq_or_of_and_eq_zero _ _ (BitVec.eq_of_getLsbD_eq fun k _ => ?_)
  simp only [BitVec.getLsbD_and, upperMask_getLsbD, lowerMask_getLsbD, BitVec.getLsbD_zero]
  by_cases h31 : k = 31
  · simp [h31]
  · simp [h31]

/-- The twist's x takes bit 31 of `a` and the other bits of `b` (R53). -/
theorem maskedHalves_getLsbD (a b : Word) {k : Nat} (h : k < 32) :
    ((a &&& upperMask) + (b &&& lowerMask)).getLsbD k =
      if k = 31 then a.getLsbD 31 else b.getLsbD k := by
  rw [maskedHalves_add_eq_or, BitVec.getLsbD_or, BitVec.getLsbD_and, BitVec.getLsbD_and,
    upperMask_getLsbD, lowerMask_getLsbD]
  split
  · next h31 => simp [h31]
  · next h31 =>
    have hlt : k < 31 := by omega
    simp [h31, hlt]

/-- Settles O33: odd(x) is bit 0 of x, which is bit 0 of b. -/
theorem twistStepSelectsItsBits : Obligations.TwistStepSelectsItsBits := by
  refine ⟨fun a b c => ?_, fun c => ?_, by decide, by decide, by decide⟩
  · have hlow : ∀ k, k < 31 → ((a &&& upperMask) + (b &&& lowerMask)).getLsbD k = b.getLsbD k :=
      fun k hk => by rw [maskedHalves_getLsbD a b (by omega), if_neg (by omega)]
    refine ⟨maskedHalves_add_eq_or a b, maskedHalves_getLsbD a b (by decide), hlow, ?_⟩
    rw [twistStep, oddWord, hlow 0 (by decide)]
  · have hx : twistStep 0#32 0#32 c = c ^^^ 0#32 := rfl
    rw [hx, BitVec.xor_zero]

section
variable {w n : Nat}

/-- XOR of a word with itself shifted right is injective: its top bits are the word's own, and each bit
below is fixed by the bit `n` places above it (R54). -/
theorem xor_ushiftRight_injective (hn : 0 < n) :
    Function.Injective fun y : BitVec w => y ^^^ (y >>> n) := by
  intro x y hxy
  have hbits : ∀ d k, w ≤ k + d → x.getLsbD k = y.getLsbD k := by
    intro d
    induction d with
    | zero => exact fun k hk => by rw [BitVec.getLsbD_of_ge x k hk, BitVec.getLsbD_of_ge y k hk]
    | succ d ih =>
      intro k hk
      have hk' := congrArg (BitVec.getLsbD · k) hxy
      simp only [BitVec.getLsbD_xor, BitVec.getLsbD_ushiftRight, ih (n + k) (by omega)] at hk'
      exact Bool.xor_left_inj.mp hk'
  exact BitVec.eq_of_getLsbD_eq fun k _ => hbits w k (by omega)

/-- XOR of a word with any selection of its bits shifted left is injective: each bit is fixed by the bit
`n` places below it (R54). -/
theorem xor_shiftLeft_and_injective (hn : 0 < n) (m : BitVec w) :
    Function.Injective fun y : BitVec w => y ^^^ ((y <<< n) &&& m) := by
  intro x y hxy
  refine BitVec.eq_of_getLsbD_eq fun k _ => ?_
  induction k using Nat.strongRecOn with
  | ind k ih =>
    have hk' := congrArg (BitVec.getLsbD · k) hxy
    have hshift : (x <<< n).getLsbD k = (y <<< n).getLsbD k := by
      rw [BitVec.getLsbD_shiftLeft, BitVec.getLsbD_shiftLeft]
      by_cases hkn : k < n
      · simp [hkn]
      · rw [ih (k - n) (by omega) (by omega)]
    simp only [BitVec.getLsbD_xor, BitVec.getLsbD_and, hshift] at hk'
    exact Bool.xor_left_inj.mp hk'

end

/-- Tempering is its four steps, each injective (R54). -/
theorem temper_injective : Function.Injective temper :=
  (xor_ushiftRight_injective (n := temperShiftL) (by decide)).comp <|
  (xor_shiftLeft_and_injective (n := temperShiftT) (by decide) temperMaskC).comp <|
  (xor_shiftLeft_and_injective (n := temperShiftS) (by decide) temperMaskB).comp <|
  xor_ushiftRight_injective (n := temperShiftU) (by decide)

/-- Settles O35: an injection of a finite type into itself is a bijection. -/
theorem temperIsABijection : Obligations.TemperIsABijection := by
  refine ⟨?_, Finite.injective_iff_bijective.mp temper_injective, by decide, by decide, by decide,
    by decide⟩
  rintro y0 _ _ _ rfl rfl rfl
  rfl

end Sys2Proof.Machine
end

section
/-! The in-place twist: what each iteration reads, so that the twisted array is the one array of R58's
rows. -/

namespace Sys2Proof.Machine

/-- Iteration `i` reads a word from `i` on as it was before the twist. -/
theorem twistUpTo_reads_old (mt : StateArray) {i k : Nat} (hik : i ≤ k) (hk : k < 624) :
    stateRead (twistUpTo mt i) (wordIndex k) = stateRead mt (wordIndex k) :=
  twistUpTo_later mt i (by omega) _ (by rwa [wordIndex_val hk])

/-- Iteration `i` reads a word before `i` as the twist leaves it. -/
theorem twistUpTo_reads_new (mt : StateArray) {i k : Nat} (hki : k < i) (hi : i ≤ 624) :
    stateRead (twistUpTo mt i) (wordIndex k) = stateRead (twist mt) (wordIndex k) :=
  (twistUpTo_settled mt i 624 hi le_rfl _ (by rwa [wordIndex_val (by omega)])).symm

/-- Index arithmetic wraps at 624 (R27). -/
theorem wordIndex_add_length (k : Nat) : wordIndex (k + 624) = wordIndex k :=
  Fin.ext (Nat.add_mod_right k 624)

/-- The twisted array is made in the rows of R58. -/
theorem twist_rows (old : StateArray) : TwistRows old (twist old) := by
  have hoffset : twistOffset = 397 := rfl
  refine ⟨fun i hi => ?_, fun i h1 h2 => ?_, ?_⟩
  · rw [twist_word old i (by omega), twistUpTo_reads_old old (by omega) (by omega),
      twistUpTo_reads_old old (by omega) (by omega), twistUpTo_reads_old old (by omega) (by omega)]
  · have hwrap : wordIndex (i + twistOffset) = wordIndex (i - 227) := by
      rw [← wordIndex_add_length (i - 227), show i - 227 + 624 = i + twistOffset by omega]
    rw [twist_word old i (by omega), hwrap, twistUpTo_reads_old old (by omega) (by omega),
      twistUpTo_reads_old old (by omega) (by omega), twistUpTo_reads_new old (by omega) (by omega)]
  · have hwrap : wordIndex (623 + 1) = wordIndex 0 := rfl
    have hwrap' : wordIndex (623 + twistOffset) = wordIndex 396 := rfl
    rw [twist_word old 623 (by decide), hwrap, hwrap', twistUpTo_reads_old old le_rfl (by decide),
      twistUpTo_reads_new old (by decide) (by decide), twistUpTo_reads_new old (by decide) (by decide)]

/-- The rows of R58 fix every word: each new word a row reads stands before the word it makes. -/
theorem twistRows_unique {old a b : StateArray} (ha : TwistRows old a) (hb : TwistRows old b) :
    a = b := by
  obtain ⟨ha1, ha2, ha3⟩ := ha
  obtain ⟨hb1, hb2, hb3⟩ := hb
  refine stateArray_ext_wordIndex fun i hi => ?_
  induction i using Nat.strongRecOn with
  | ind i ih =>
    obtain h | h | rfl : i ≤ 226 ∨ (227 ≤ i ∧ i ≤ 622) ∨ i = 623 := by omega
    · rw [ha1 i h, hb1 i h]
    · rw [ha2 i h.1 h.2, hb2 i h.1 h.2, ih (i - 227) (by omega) (by omega)]
    · rw [ha3, hb3, ih 0 (by decide) (by decide), ih 396 (by decide) (by decide)]

/-- Settles O34. -/
theorem twistReadsInPlace : Obligations.TwistReadsInPlace := fun old _ =>
  ⟨fun h => h ▸ twist_rows old, fun h => twistRows_unique h (twist_rows old)⟩

/-- Settles O39: a fresh engine's first draw twists, and row 0 of the twist reads old words only. -/
theorem firstWordOfAFreshEngine : Obligations.FirstWordOfAFreshEngine := by
  refine ⟨fun seed => ?_, initArray_zero _, initArray_5489_one, by decide +kernel, by decide⟩
  have hmt : (newEngine seed).mt = initArray seed := rfl
  obtain ⟨hold, -, -⟩ := twist_rows (initArray seed)
  rw [draw_full (newEngine seed) rfl, emitWord_word, hmt, ← wordIndex_zero, hold 0 (by decide)]

end Sys2Proof.Machine
end

section
/-! NEXT: the two cases of its draw, its answer beside the cell commands, and the stream of words after
a SEED. -/

namespace Sys2Proof.Machine

/-- Settles O36: the draw is one below cursor 624. -/
theorem nextEmitsTheWordAtTheCursor : Obligations.NextEmitsTheWordAtTheCursor := by
  intro s hs hc
  have hx := exec_next_draws hs
  rw [draw_within _ hc] at hx
  exact ⟨_, hx, by rw [wordIndex_of_fin ⟨_, hc⟩, emitWord_word], rfl, rfl, rfl, rfl⟩

/-- Settles O37: the array NEXT leaves is the twisted one, which has R58's rows. -/
theorem nextTwistsAnExhaustedArray : Obligations.NextTwistsAnExhaustedArray := fun s hs hc =>
  ⟨_, exec_next_full hs hc, twist_rows s.block.eng.mt, rfl, rfl, rfl, rfl⟩

/-- NEXT's answer and the block it leaves depend on the block alone. -/
theorem exec_next_of_block_eq {s t : State} (h : t.block = s.block) :
    ∃ u v resp, exec .next s = .next u ∧ exec .next t = .next v ∧
      u.answered = s.answered ++ [resp] ∧ v.answered = t.answered ++ [resp] ∧ v.block = u.block := by
  cases hs : s.block.seeded with
  | true =>
    refine ⟨_, _, _, exec_next_draws hs, exec_next_draws (h ▸ hs), rfl, ?_, ?_⟩
    · rw [h]
    · rw [h]
  | false => exact ⟨_, _, _, exec_next_unseeded hs, exec_next_unseeded (h ▸ hs), rfl, rfl, h⟩

/-- Settles O50: a cell command leaves the block, on which alone the NEXT depends. -/
theorem cellCommandsDoNotDisturbTheStream : Obligations.CellCommandsDoNotDisturbTheStream := by
  intro i x z s hi
  obtain ⟨t, -, hx, -⟩ := exec_answers i s
  have hb : t.block = s.block := exec_cell_block (hi.imp (fun e => e ▸ hx) (fun e => e ▸ hx))
  obtain ⟨u, v, resp, hu, hv, hrest⟩ := exec_next_of_block_eq hb
  exact ⟨t, u, v, resp, hx, hu, hv, hrest⟩

/-- A draw's word is the tempered word just before the cursor it leaves, in the array it leaves (R55). -/
theorem draw_word (e : Engine) :
    (draw e).1 = temper (stateRead (draw e).2.mt (wordIndex ((draw e).2.cursor.val - 1))) := by
  obtain ⟨-, hd⟩ | ⟨hlt, hd⟩ := draw_cases e
  · rw [hd]
    rfl
  · rw [hd, emitWord_cursor, emitWord_mt, emitWord_word, Nat.add_sub_cancel, wordIndex_of_fin ⟨_, hlt⟩]

/-- A draw at cursor 624 leaves the twisted array (R55). -/
theorem draw_mt_of_cursor_full {e : Engine} (h : e.cursor.val = 624) : (draw e).2.mt = twist e.mt := by
  rw [draw_full e h, emitWord_mt]

/-- The cursor after `k` draws of a fresh engine: 624 after every 624th, else the number drawn since
(R55, R59). -/
theorem drawMany_newEngine_cursor (seed : Word) (k : Nat) :
    (drawMany k (newEngine seed)).cursor.val = (k + 623) % 624 + 1 := by
  induction k with
  | zero => rfl
  | succ k ih =>
    rw [drawMany, draw_cursor, ih]
    split <;> omega

/-- The array after `k` draws of a fresh engine has had `ceil(k / 624)` twists (R59). -/
theorem drawMany_newEngine_mt (seed : Word) (k : Nat) :
    (drawMany k (newEngine seed)).mt = twistedArray seed ((k + 623) / 624) := by
  induction k with
  | zero => rfl
  | succ k ih =>
    have hcursor := drawMany_newEngine_cursor seed k
    rw [drawMany]
    by_cases hc : (k + 623) % 624 = 623
    · have hcount : (k + 1 + 623) / 624 = (k + 623) / 624 + 1 := by omega
      rw [draw_mt_of_cursor_full (by omega), ih, hcount, twistedArray]
    · have hcount : (k + 1 + 623) / 624 = (k + 623) / 624 := by omega
      rw [draw_mt_of_cursor_ne (by omega), ih, hcount]

/-- The word of the draw after `k` draws of a fresh engine (R59). -/
theorem draw_drawMany_newEngine_word (seed : Word) (k : Nat) :
    (draw (drawMany k (newEngine seed))).1 =
      temper (stateRead (twistedArray seed ((k + 1 + 623) / 624)) (wordIndex k)) := by
  have hindex : wordIndex ((k + 1 + 623) % 624 + 1 - 1) = wordIndex k := by
    apply Fin.ext
    simp only [wordIndex]
    omega
  rw [draw_word, ← drawMany, drawMany_newEngine_cursor, drawMany_newEngine_mt, hindex]

/-- A command does not look at what else is presented: it does the same with more events pending. -/
theorem exec_presentAll {i : Instr} {s t : State} (h : exec i s = .next t) (is : List Instr) :
    exec i (presentAll is s) = .next (presentAll is t) := by
  cases i with
  | next =>
    cases hs : s.block.seeded with
    | true =>
      rw [exec_next_draws hs] at h
      cases h
      exact exec_next_draws (s := presentAll is s) hs
    | false =>
      rw [exec_next_unseeded hs] at h
      cases h
      exact exec_next_unseeded (s := presentAll is s) hs
  | seed seed => cases h; rfl
  | cellseed x z => cases h; rfl
  | isspecial x z => cases h; rfl

/-- Presenting commands and stepping executes the first, the others still pending (R33, R88). -/
theorem step_presentAll_cons {i : Instr} {s t : State} (h : exec i s = .next t) (is : List Instr) :
    step (presentAll (i :: is) s) = .next (presentAll is t) :=
  (step_present i (presentAll is s)).trans (exec_presentAll h is)

/-- `n` presented NEXTs on a seeded block are `n` draws; what is presented behind them is still
pending. -/
theorem runSteps_nexts (n : Nat) (is : List Instr) {s : State} (hs : s.block.seeded = true) :
    ∃ t, runSteps n (presentAll (List.replicate n .next ++ is) s) = .next (presentAll is t) ∧
      t.block = ⟨drawMany n s.block.eng, true⟩ := by
  induction n generalizing s with
  | zero => exact ⟨s, rfl, by rw [drawMany, ← hs]⟩
  | succ n ih =>
    obtain ⟨s₁, -, hx, -⟩ := exec_answers .next s
    have hb₁ : s₁.block = ⟨(draw s.block.eng).2, true⟩ := exec_next_seeded_block hs hx
    obtain ⟨t, hrun, hb⟩ := ih (s := s₁) (by rw [hb₁])
    exact ⟨t, (runSteps_succ (step_presentAll_cons hx _) n).trans hrun, by rw [hb, hb₁, drawMany_draw]⟩

/-- A presented SEED and `n` NEXTs leave a fresh engine after `n` draws; what is presented behind them
is still pending. -/
theorem runSteps_seed_nexts (seed : Word) (n : Nat) (is : List Instr) (s : State) :
    ∃ t, runSteps (n + 1) (presentAll (.seed seed :: (List.replicate n .next ++ is)) s) =
        .next (presentAll is t) ∧
      t.block = ⟨drawMany n (newEngine seed), true⟩ := by
  obtain ⟨s₁, -, hx, -⟩ := exec_answers (.seed seed) s
  have hb₁ : s₁.block = ⟨newEngine seed, true⟩ := exec_seed_block hx
  obtain ⟨t, hrun, hb⟩ := runSteps_nexts n is (s := s₁) (by rw [hb₁])
  exact ⟨t, (runSteps_succ (step_presentAll_cons hx _) n).trans hrun, by rw [hb, hb₁]⟩

/-- Settles O38: with k = n + 1, the run is the SEED and n NEXTs, and the k-th NEXT draws once more. -/
theorem streamFollowsTheTwistSchedule : Obligations.StreamFollowsTheTwistSchedule := by
  intro s seed k hk
  obtain ⟨n, rfl⟩ : ∃ n, k = n + 1 := ⟨k - 1, by omega⟩
  obtain ⟨t, hrun, hb⟩ := runSteps_seed_nexts seed n [.next] s
  have hcursor := drawMany_newEngine_cursor seed n
  have hstep := step_presentAll_cons (exec_next_draws (s := t) (by rw [hb])) []
  refine ⟨presentAll [.next] t, _, ?_, hstep, ?_, ?_, ?_, ?_⟩
  · rw [List.replicate_succ']
    exact hrun
  · show t.block.eng.mt = _
    rw [hb, drawMany_newEngine_mt, Nat.add_sub_cancel]
  · show (draw t.block.eng).2.mt = _
    rw [hb, ← drawMany, drawMany_newEngine_mt]
  · show t.block.eng.cursor.val = 624 ↔ _
    rw [hb, hcursor]
    omega
  · show t.answered ++ [⟨.ok, (draw t.block.eng).1⟩] = _
    rw [hb, draw_drawMany_newEngine_word, Nat.add_sub_cancel]
    rfl

end Sys2Proof.Machine
end

section
/-! The seed of a cell: `mul32` as arithmetic modulo 2^32, the multiplier as an invertible word, and
seed and predicate as functions of the coordinates modulo 2^32. -/

namespace Sys2Proof.Machine

/-- The low 32 bits of a product by 16-bit limbs: the product of the high limbs has weight 2^32 and
drops out, and of the cross products, of weight 2^16, 16 bits remain (R61). -/
theorem mul_mod_eq_limbs (m n : Nat) :
    m * n % 4294967296 = (m % 65536 * (n % 65536) +
      65536 * ((m / 65536 * (n % 65536) + m % 65536 * (n / 65536)) % 65536)) % 4294967296 := by
  have hmn : m * n = m % 65536 * (n % 65536) +
      65536 * (m / 65536 * (n % 65536) + m % 65536 * (n / 65536)) +
      4294967296 * (m / 65536 * (n / 65536)) := by
    conv_lhs => rw [← Nat.div_add_mod m 65536, ← Nat.div_add_mod n 65536]
    ring
  omega

theorem mul32_toNat (a b : Word) : (mul32 a b).toNat = a.toNat * b.toNat % 4294967296 :=
  BitVec.toNat_mul a b

/-- Reduction to a word respects products, whatever the width and sign of the factors (R61). -/
theorem trunc32_mul (m n : Int) : trunc32 (m * n) = mul32 (trunc32 m) (trunc32 n) :=
  BitVec.ofInt_mul m n

/-- Settles O42: the limb formula is that of the naturals, read modulo 2^32. -/
theorem mul32KeepsTheLowWord : Obligations.Mul32KeepsTheLowWord := by
  refine ⟨mul32_toNat, trunc32_mul, fun a b => ?_, by decide, by decide, by decide⟩
  apply BitVec.eq_of_toNat_eq
  rw [mul32_toNat, BitVec.toNat_ofNat]
  exact mul_mod_eq_limbs a.toNat b.toNat

theorem derivedSeed_eq (x z : Word) : derivedSeed x z = (x * 0x1F1F1F1F#32) ^^^ z := rfl

/-- The seed of the integer coordinates is that of the words that present them (R39, R62). -/
theorem cellSeed_eq (x z : Int) : cellSeed x z = derivedSeed (trunc32 x) (trunc32 z) := rfl

/-- The multiplier is odd, so it has an inverse modulo 2^32, and multiplying by it loses nothing
(R62). -/
theorem mul_cellMultiplier_injective : Function.Injective fun x : Word => x * 0x1F1F1F1F#32 := by
  have hinv : (0x1F1F1F1F#32 : Word) * 0xCE739CDF#32 = 1#32 := by decide
  refine Function.LeftInverse.injective (g := fun y : Word => y * 0xCE739CDF#32) fun x => ?_
  show x * 0x1F1F1F1F#32 * 0xCE739CDF#32 = x
  rw [BitVec.mul_assoc, hinv, BitVec.mul_one]

theorem derivedSeed_injective (z : Word) : Function.Injective fun x : Word => derivedSeed x z :=
  fun _ _ h => mul_cellMultiplier_injective ((BitVec.xor_left_inj z).mp h)

/-- Settles O43: an injection of a finite type into itself is a bijection. -/
theorem seedDerivationIsBijective : Obligations.SeedDerivationIsBijective :=
  ⟨cellSeed_eq, fun z => Finite.injective_iff_bijective.mp (derivedSeed_injective z),
    derivedSeed_eq, by decide⟩

/-- Settles O44: no state enters the answer; the corner cases by evaluation. -/
theorem cellseedAnswersTheDerivedSeed : Obligations.CellseedAnswersTheDerivedSeed :=
  ⟨fun _ _ => decode_cmd_three rfl, exec_cellseed, fun x z => exec_cellseed (trunc32 x) (trunc32 z),
    by decide⟩

/-- Settles O48: the state does not enter the response. -/
theorem cellCommandsAreDeterministic : Obligations.CellCommandsAreDeterministic := fun x z s s' =>
  ⟨⟨_, _, _, exec_cellseed x z s, exec_cellseed x z s', rfl, rfl⟩,
    ⟨_, _, _, exec_isspecial x z s, exec_isspecial x z s', rfl, rfl⟩⟩

theorem trunc32_add_mul (v k : Int) : trunc32 (v + 4294967296 * k) = trunc32 v := by
  apply BitVec.eq_of_toNat_eq
  zify
  rw [trunc32_toNat, trunc32_toNat, Int.add_mul_emod_self_left]

section
variable {x z x' z' : Int} (hx : trunc32 x = trunc32 x') (hz : trunc32 z = trunc32 z')
include hx hz

theorem cellSeed_congr : cellSeed x z = cellSeed x' z' := by
  rw [cellSeed_eq, cellSeed_eq, hx, hz]

theorem isSpecial_congr : isSpecial x z = isSpecial x' z' := by
  rw [isSpecial, isSpecial, cellSeed_congr hx hz]

end

/-- Settles O46: the coordinates enter through their `trunc32` patterns alone. -/
theorem coordinatesCountModulo : Obligations.CoordinatesCountModulo := by
  have h0 : trunc32 4294967296 = trunc32 0 := by decide
  exact ⟨fun x z j k => ⟨cellSeed_congr (trunc32_add_mul x j) (trunc32_add_mul z k),
      isSpecial_congr (trunc32_add_mul x j) (trunc32_add_mul z k)⟩,
    fun _ _ _ _ hx hz => ⟨cellSeed_congr hx hz, isSpecial_congr hx hz⟩,
    fun x z => exec_isspecial (trunc32 x) (trunc32 z),
    by decide, isSpecial_congr h0 rfl, cellSeed_congr rfl h0, isSpecial_congr rfl h0⟩

end Sys2Proof.Machine
end

section
/-! The predicate: its RESULT word, its value by the seeding recurrence, and its agreement with the
first NEXT after SEEDCELL. -/

namespace Sys2Proof.Machine

theorem seedIsSpecial_iff (seed : Word) :
    seedIsSpecial seed = true ↔ (draw (newEngine seed)).1.toNat % 10 = 0 := beq_iff_eq

theorem boolWord_eq_one_iff (b : Bool) : boolWord b = 1#32 ↔ b = true := by
  cases b <;> decide

theorem boolWord_eq_zero_iff (b : Bool) : boolWord b = 0#32 ↔ ¬ b = true := by
  cases b <;> decide

/-- The first word of a fresh engine, through any array that meets the seeding recurrence (R60). -/
theorem draw_newEngine_word_of_isSeeding {seed : Word} {mt : StateArray} (h : IsSeeding seed mt) :
    (draw (newEngine seed)).1 = temper (twistStep (stateRead mt (wordIndex 0))
      (stateRead mt (wordIndex 1)) (stateRead mt (wordIndex 397))) := by
  obtain rfl := (eq_initArray_iff seed mt).mpr h
  exact firstWordOfAFreshEngine.1 seed

/-- Settles O45: the RESULT word is the predicate's, and the predicate reads the first word alone. -/
theorem isspecialEvaluatesThePredicate : Obligations.IsspecialEvaluatesThePredicate := by
  intro x z s mt h
  rw [← derivedSeed_eq] at h
  simp only [exec_isspecial, respond, boolWord, seedIsSpecial_iff, draw_newEngine_word_of_isSeeding h]

/-- A script goes on from where its first part leaves the machine. -/
theorem runScript_append {hs ks : List HostStep} {s t : State} (h : runScript hs s = some t) :
    runScript (hs ++ ks) s = runScript ks t := by
  induction hs generalizing s with
  | nil =>
    cases h
    rfl
  | cons h₀ hs ih =>
    cases hstep : hostStep h₀ s with
    | none => simp [runScript, hstep] at h
    | some s₁ =>
      rw [runScript_cons hstep] at h
      exact (runScript_cons hstep).trans (ih h)

/-- SEEDCELL and then NEXT: the NEXT draws the first word of the fresh engine of the derived seed
(R67). -/
theorem runScript_seedcell_next (x z : Word) (s : State) :
    ∃ u, runScript (expandSeedcell x z ++ [.issue .next]) s = some u ∧
      u.block = ⟨drawMany 1 (newEngine (derivedSeed x z)), true⟩ ∧
      u.answered = s.answered ++
        [⟨.ok, derivedSeed x z⟩, ⟨.ok, 0#32⟩, ⟨.ok, (draw (newEngine (derivedSeed x z))).1⟩] := by
  obtain ⟨t, hrun, hb, -, ha⟩ := runScript_expandSeedcell x z s
  have hnext := exec_next_draws (s := t) (by rw [hb])
  refine ⟨_, (runScript_append hrun).trans (runScript_issue hnext), ?_, ?_⟩
  · simp only [hb, drawMany]
  · simp [hb, ha]

/-- Settles O47: both draw the first word of the same fresh engine. -/
theorem isspecialAgreesWithSeedcellNext : Obligations.IsspecialAgreesWithSeedcellNext := by
  intro x z s
  obtain ⟨u, hrun, hb, ha⟩ := runScript_seedcell_next x z s
  refine ⟨_, u, _, _, exec_isspecial x z s, rfl, rfl, hrun, ha, hb, ?_, ?_, ?_⟩
  · rw [hb, drawMany_newEngine_cursor]
  · rw [boolWord_eq_one_iff, seedIsSpecial_iff]
  · rw [boolWord_eq_zero_iff, seedIsSpecial_iff]

end Sys2Proof.Machine
end

section
/-! Errors: which status a request is answered with, what an error response leaves, and that the answers
given so far affect no later step. -/

namespace Sys2Proof.Machine

/-- Settles O11, by cases on the status. -/
theorem statusCodesAreTheThree : Obligations.StatusCodesAreTheThree := by
  refine ⟨rfl, rfl, rfl, fun st => ?_⟩
  cases st <;> decide

/-- Settles O12: an illegal CMD word does not decode. -/
theorem illegalCommandsAreAnswered : Obligations.IllegalCommandsAreAnswered := by
  refine ⟨rfl, fun s cmd arg0 arg1 rest hp hill => ?_⟩
  obtain ⟨e, hd⟩ := (illegalCmd_iff_decode_error ⟨cmd, arg0, arg1⟩).mp hill
  exact step_request_error hp hd

/-- The status a command answers with: UNSEEDED for NEXT while SEEDED = 0, and OK otherwise (R72,
R73). -/
theorem exec_status {i : Instr} {s t : State} {resp : Response} (h : exec i s = .next t)
    (ha : t.answered = s.answered ++ [resp]) :
    resp.status = if i = .next ∧ s.block.seeded = false then .unseeded else .ok := by
  obtain ⟨-, ⟨_, rfl, -, h'⟩ | ⟨rfl, hs, -, h'⟩ | ⟨rfl, hs, -, h'⟩ | ⟨⟨_, _, rfl, h'⟩, -⟩ |
    ⟨⟨_, _, rfl, h'⟩, -⟩⟩ := exec_cases h
  all_goals cases List.append_cancel_left (ha.symm.trans h')
  · rw [if_neg (by simp)]
  · rw [if_neg (by simp [hs])]
  · rw [if_pos ⟨rfl, hs⟩]
  · rw [if_neg (by simp)]
  · rw [if_neg (by simp)]

theorem exec_status_unseeded_iff {i : Instr} {s t : State} {resp : Response}
    (h : exec i s = .next t) (ha : t.answered = s.answered ++ [resp]) :
    resp.status = .unseeded ↔ i = .next ∧ s.block.seeded = false := by
  rw [exec_status h ha]
  split <;> simp [*]

/-- Settles O13. -/
theorem onlyNextReportsUnseeded : Obligations.OnlyNextReportsUnseeded :=
  ⟨rfl, fun _ hs => exec_next_unseeded hs,
    fun _ _ _ _ h ha => (exec_status_unseeded_iff h ha).mp rfl⟩

theorem decode_eq_next_iff (r : Request) : decode r = .ok .next ↔ r.cmd = 2#32 :=
  ⟨fun h => ((decodedCommandFixesItsWords r .next).mp h).1, decode_cmd_two⟩

section
variable {s t : State} {r : Request} {rest : List PortEvent} {resp : Response}

/-- A request that does not decode is answered with ILLEGAL_CMD (R71). -/
theorem step_status_of_decode_error {e : DecodeError} (hp : s.pending = .request r :: rest)
    (hd : decode r = .error e) (h : step s = .next t) (ha : t.answered = s.answered ++ [resp]) :
    resp.status = .illegalCmd := by
  rw [step_request_error hp hd] at h
  cases List.append_cancel_left (ha.symm.trans (raiseError_next h).2.2)
  rfl

/-- ILLEGAL_CMD depends on the CMD word alone (R73). -/
theorem step_status_illegalCmd_iff (hp : s.pending = .request r :: rest) (h : step s = .next t)
    (ha : t.answered = s.answered ++ [resp]) : resp.status = .illegalCmd ↔ IllegalCmd r.cmd := by
  rw [illegalCmd_iff_decode_error]
  cases hd : decode r with
  | ok i =>
    rw [exec_status (s := takeEvent rest s) (step_request_ok hp hd ▸ h) ha]
    split <;> simp
  | error e => simp [step_status_of_decode_error hp hd h ha]

/-- UNSEEDED needs a request that decodes to NEXT, and SEEDED = 0 (R72, R73). -/
theorem step_status_unseeded_iff (hp : s.pending = .request r :: rest) (h : step s = .next t)
    (ha : t.answered = s.answered ++ [resp]) :
    resp.status = .unseeded ↔ r.cmd = 2#32 ∧ s.block.seeded = false := by
  rw [← decode_eq_next_iff]
  cases hd : decode r with
  | ok i =>
    rw [exec_status_unseeded_iff (s := takeEvent rest s) (step_request_ok hp hd ▸ h) ha,
      takeEvent_block, Except.ok.injEq]
  | error e => simp [step_status_of_decode_error hp hd h ha]

/-- A step answers with an error only by raising it on the state with the request taken (R70). -/
theorem step_error_raises (hp : s.pending = .request r :: rest) (h : step s = .next t)
    (ha : t.answered = s.answered ++ [resp]) (hst : resp.status ≠ .ok) :
    ∃ e, step s = raiseError e (takeEvent rest s) := by
  cases hd : decode r with
  | ok i =>
    have hx : exec i (takeEvent rest s) = .next t := step_request_ok hp hd ▸ h
    obtain ⟨rfl, hs⟩ : i = .next ∧ s.block.seeded = false := by
      by_contra hn
      exact hst ((exec_status hx ha).trans (if_neg hn))
    exact ⟨.unseeded, (step_request_ok hp hd).trans (exec_next_unseeded hs)⟩
  | error e => exact ⟨.illegalCmd, step_request_error hp hd⟩

end

/-- Settles O14. -/
theorem decodingErrorsComeFirst : Obligations.DecodingErrorsComeFirst := by
  intro s r rest hp
  obtain ⟨t, resp, h, -, ha⟩ := step_answers_request hp
  exact ⟨t, resp.status, resp.result, h, ha, step_status_illegalCmd_iff hp h ha,
    step_status_unseeded_iff hp h ha⟩

/-- `a`, an outcome from `s`, and `b`, an outcome from `t`, are next states with the same block and the
same events to come, and each adds the same responses. -/
def SameEffect (s t : State) (a b : Result) : Prop :=
  ∃ u v new, a = .next u ∧ b = .next v ∧ v.block = u.block ∧ v.pending = u.pending ∧
    u.answered = s.answered ++ new ∧ v.answered = t.answered ++ new

section
variable {s t : State} (hb : t.block = s.block)
include hb

theorem sameEffect_exec (hp : t.pending = s.pending) (i : Instr) :
    SameEffect s t (exec i s) (exec i t) := by
  cases i with
  | seed seed => exact ⟨_, _, _, exec_seed seed s, exec_seed seed t, rfl, hp, rfl, rfl⟩
  | next =>
    obtain ⟨u, v, resp, hu, hv, hua, hva, hblock⟩ := exec_next_of_block_eq hb
    have hpending : v.pending = u.pending := by
      rw [(exec_adds_one_response hu).1, (exec_adds_one_response hv).1, hp]
    exact ⟨u, v, [resp], hu, hv, hblock, hpending, hua, hva⟩
  | cellseed x z => exact ⟨_, _, _, exec_cellseed x z s, exec_cellseed x z t, hb, hp, rfl, rfl⟩
  | isspecial x z => exact ⟨_, _, _, exec_isspecial x z s, exec_isspecial x z t, hb, hp, rfl, rfl⟩

/-- What a step does and answers depends on the block and the events to come, not on the answers given
before it: the block keeps no record of them (R70). -/
theorem sameEffect_step (hp : t.pending = s.pending) : SameEffect s t (step s) (step t) := by
  match hs : s.pending with
  | [] =>
    exact ⟨s, t, [], step_idle hs, step_idle (hp.trans hs), hb, hp, by simp, by simp⟩
  | .request r :: rest =>
    cases hd : decode r with
    | ok i =>
      rw [step_request_ok hs hd, step_request_ok (hp.trans hs) hd]
      exact sameEffect_exec (s := takeEvent rest s) (t := takeEvent rest t) hb rfl i
    | error e =>
      exact ⟨_, _, _, step_request_error hs hd, step_request_error (hp.trans hs) hd, hb, rfl, rfl, rfl⟩
  | .reset c :: rest =>
    exact ⟨_, _, [], step_reset hs, step_reset (hp.trans hs), rfl, rfl, by simp, by simp⟩
  | .abandoned r c :: rest =>
    exact ⟨_, _, [], step_abandoned hs, step_abandoned (hp.trans hs), rfl, rfl, by simp, by simp⟩

end

/-- Settles O15: an error is raised on the state with the request taken, and the block and the events to
come, which it leaves, decide the next step. -/
theorem errorsChangeNothing : Obligations.ErrorsChangeNothing := by
  refine ⟨fun _ _ => rfl, rfl, rfl, fun s t r rest st w hp h ha hst => ?_⟩
  obtain ⟨e, hraise⟩ := step_error_raises hp h ha hst
  obtain ⟨hb, hrest, -⟩ := raiseError_next (hraise.symm.trans h)
  exact ⟨step_error_result hp h ha hst, hb, hrest,
    sameEffect_step (s := takeEvent rest s) (t := t) hb hrest⟩

end Sys2Proof.Machine
end

section
/-! The step as a total function, and resets: what a reset leaves, alike between commands and during one,
and that nothing else clears SEEDED. -/

namespace Sys2Proof.Machine

/-- Settles O8. -/
theorem stepRunsTheDecodedCommand : Obligations.StepRunsTheDecodedCommand :=
  fun _ _ _ _ hp hd => step_request_ok hp hd

/-- Settles O9, by cases on the port's oldest event. -/
theorem everyStepCompletes : Obligations.EveryStepCompletes := fun _ =>
  ⟨fun _ _ hp => step_answers_request hp,
    fun _ _ hp => ⟨_, step_reset hp, rfl, rfl⟩,
    fun _ _ _ hp => ⟨_, step_abandoned hp, rfl, rfl⟩,
    step_idle⟩

/-- No command clears SEEDED (R18). -/
theorem exec_keeps_seeded {i : Instr} {s t : State} (hs : s.block.seeded = true)
    (h : exec i s = .next t) : t.block.seeded = true := by
  by_cases hi : ∃ seed, i = .seed seed
  · obtain ⟨seed, rfl⟩ := hi
    rw [exec_seed_block h]
  · rw [exec_leaves_seeded (not_exists.mp hi) h, hs]

/-- A step that clears SEEDED takes a reset from the port, between commands or during one: an idle step
and an illegal request leave the block, and no command clears SEEDED. -/
theorem step_clears_seeded {s t : State} (h : step s = .next t) (hs : s.block.seeded = true)
    (ht : t.block.seeded = false) :
    ∃ c rest, s.pending = .reset c :: rest ∨ ∃ r, s.pending = .abandoned r c :: rest := by
  have hne : t.block.seeded ≠ true := by simp [ht]
  obtain ⟨-, rfl⟩ | ⟨_, rest, _, -, -, hx⟩ | ⟨_, rest, _, -, -, hx⟩ | ⟨_, rest, c, hp, hev, -⟩ :=
    step_cases h
  · exact absurd hs hne
  · exact absurd (exec_keeps_seeded (s := takeEvent rest s) hs hx) hne
  · rw [(raiseError_next hx).1] at hne
    exact absurd hs hne
  · obtain rfl | ⟨r, rfl⟩ := hev
    · exact ⟨c, rest, .inl hp⟩
    · exact ⟨c, rest, .inr ⟨r, hp⟩⟩

/-- Settles O17. -/
theorem resetPutsTheBlockBack : Obligations.ResetPutsTheBlockBack :=
  ⟨fun _ _ _ hp => ⟨_, step_reset hp, rfl, rfl, rfl, rfl, rfl⟩, fun _ _ => step_clears_seeded⟩

/-- Settles O18: both steps are the same `takeReset`. -/
theorem abandonedCommandsLeaveReset : Obligations.AbandonedCommandsLeaveReset := by
  intro s r c rest hp
  have hreset : step { s with pending := .reset c :: rest } = takeReset c (takeEvent rest s) :=
    step_reset rfl
  exact ⟨(step_abandoned hp).trans hreset.symm, _, step_abandoned hp, rfl, rfl, rfl, rfl⟩

end Sys2Proof.Machine
end
